-- ==== Sys2Proof/Word.lean ====
section
/-! DEFINITION. The byte, the one unit the block moves (00_scope R9, 20_memory R69), and big-endian assembly's
plainest arithmetic. -/

namespace Sys2Proof

/-- A byte: 8 bits, an unsigned value 0 to 255 (00_scope R9). -/
abbrev Byte := BitVec 8

end Sys2Proof
end

