-- ==== Sys2Proof/Config.lean ====
section
/-! DEFINITION. The constants of 00_scope R8 and the one free choice the spec leaves. The parameters that stay open,
`BUF_CAP` and `CACHE_INIT`, are data carried by the state (`Machine.Params`, notes/assumptions/4.md). -/

namespace Sys2Proof.Config

/-- `HDR0`, the first header byte. -/
def hdr0 : Byte := 0x53#8
/-- `HDR1`, the second header byte. -/
def hdr1 : Byte := 0x59#8
/-- `TAIL0`, the first tail byte. -/
def tail0 : Byte := 0x54#8
/-- `TAIL1`, the second tail byte. -/
def tail1 : Byte := 0x43#8
/-- `LEN_HI_MAX`, the largest accepted high byte of `data_len`. -/
def lenHiMax : Nat := 4
/-- `MAX_PAYLOAD`, the largest accepted `data_len`. -/
def maxPayload : Nat := 32
/-- `FRAME_OVERHEAD`, the bytes of a frame that are not payload. -/
def frameOverhead : Nat := 9
/-- `MAX_FRAME`, the longest frame; also the least and the default `BUF_CAP`. -/
def maxFrame : Nat := 41
/-- `STR_CAP`, the cap on a product-information string. -/
def strCap : Nat := 32
/-- `N_SCENES`, the number of scene modes; valid index 1 to 4. -/
def nScenes : Nat := 4
/-- `N_BOUNDARY`, the entries of each boundary distance table; valid index 1 to 10. -/
def nBoundary : Nat := 10
/-- `N_PRESENCE_DIST`, the entries of the presence-distance table; valid index 0 to 6. -/
def nPresenceDist : Nat := 7
/-- `N_UNMANNED`, the values of the unmanned-duration enumeration; valid 0 to 8. -/
def nUnmanned : Nat := 9
/-- The three values of each tri-state index (motion state, approach state); valid 0 to 2 (30_encoding R98). -/
def nTriState : Nat := 3
/-- The payload byte of every query frame (47 R264). -/
def queryByte : Byte := 0x0F#8

/-- FREE VALUE (70 R354, 92 D26; notes/assumptions/5.md): when `rx` and `hb_take` are asked for in the same cycle the
order is not fixed. `takeFirst k` is the order of the `k`-th such choice, `true` when `hb_take` runs first. It has no
body, so a proof holds for both orders. -/
opaque takeFirst : Nat → Bool

end Sys2Proof.Config
end

