-- ==== Sys2Proof/Machine/Bytes.lean ====
section
/-! DEFINITION. Reading bytes out of a snapshot or a payload: the load form of the block (00_scope R12, 20_memory R64,
R80). -/

namespace Sys2Proof.Machine

/-- Big-endian assembly: the byte at the lower offset is the more significant (20_memory R64). -/
def bigEndian (bs : List Byte) : Nat := bs.foldl (fun acc b => acc * 256 + b.toNat) 0

/-- Byte `j` of a list of bytes. Callers check `j` against the length first (20_memory R66), so the value given beyond the
end is never used. -/
def byteAt (bs : List Byte) (j : Nat) : Byte := bs.getD j 0#8

/-- `MemRead(a, k)` of a snapshot, "defined only when a + k <= snap_len" (00_scope R12). -/
def memRead (snap : List Byte) (a k : Nat) : Option Nat :=
  if a + k ≤ snap.length then some (bigEndian ((snap.drop a).take k)) else none

end Sys2Proof.Machine
end

