-- ==== Sys2Proof/Machine/Checksum.lean ====
section
/-! DEFINITION. The Checksum Unit (40_checksum_unit). -/

namespace Sys2Proof.Machine

/-- The sum of a list of bytes as a true integer. -/
def byteSum (bs : List Byte) : Nat := (bs.map BitVec.toNat).sum

/-- The low 8 bits of the sum of a list of bytes (40 R122 (a)). -/
def sum8 (bs : List Byte) : Byte := BitVec.ofNat 8 (byteSum bs)

/-- `checksum(bytes)`: the sum of all bytes except the final three, modulo 256 (40 R120, 90_conflicts C1). -/
def checksum (bytes : List Byte) : Byte := sum8 (bytes.take (bytes.length - 3))

/-- The transmitted checksum byte, `bytes[L-3]` (40 R121). -/
def checksumByte (bytes : List Byte) : Byte := byteAt bytes (bytes.length - 3)

/-- `verify(bytes)`: recompute and compare against `bytes[L-3]` (40 R121). It does not look at header or tail. -/
def verify (bytes : List Byte) : Bool := decide (checksum bytes = checksumByte bytes)

/-- The incremental form of 40 R123: an 8-bit accumulator that wraps. It is not architectural state; the machine uses the
snapshot form. -/
def runningSum (acc : Byte) : List Byte → Byte
  | [] => acc
  | b :: bs => runningSum (acc + b) bs

end Sys2Proof.Machine
end

