-- ==== Sys2Proof/Syntax.lean ====
section
/-! DEFINITION. The instructions: one constructor for each row of the dispatch ROM (30_encoding R100). An instruction is a
frame; its operand is the frame's payload, kept whole because a command accepts a payload of any length (20_memory
R66, R68), so `n = data_len` is the payload's length (notes/assumptions/9.md). -/

namespace Sys2Proof

/-- The 48 commands of the dispatch ROM (30_encoding R100), each with the payload bytes `P(0), P(1), …`. -/
inductive Instr where
  /-- `SYS_HB`, pair (0x01, 0x01), R162: heartbeat reply; the payload is not read. -/
  | sysHb (p : List Byte)
  /-- `SYS_RST`, pair (0x01, 0x02), R163: reset reply; the payload is not read. -/
  | sysRst (p : List Byte)
  /-- `PRD_A1`, pair (0x02, 0xA1), R164: string. -/
  | prdA1 (p : List Byte)
  /-- `PRD_A2`, pair (0x02, 0xA2), R165: string. -/
  | prdA2 (p : List Byte)
  /-- `PRD_A3`, pair (0x02, 0xA3), R166: string. -/
  | prdA3 (p : List Byte)
  /-- `PRD_A4`, pair (0x02, 0xA4), R167: string. -/
  | prdA4 (p : List Byte)
  /-- `PRD_PROTO`, pair (0x02, 0xA5), R168: protocol type. -/
  | prdProto (p : List Byte)
  /-- `WS_SCENE_01`, pair (0x05, 0x01), R180: scene. -/
  | wsScene01 (p : List Byte)
  /-- `WS_SCENE_07`, pair (0x05, 0x07), R181: scene. -/
  | wsScene07 (p : List Byte)
  /-- `WS_SCENE_87`, pair (0x05, 0x87), R182: scene. -/
  | wsScene87 (p : List Byte)
  /-- `WS_SENS_08`, pair (0x05, 0x08), R183: sensitivity. -/
  | wsSens08 (p : List Byte)
  /-- `WS_SENS_88`, pair (0x05, 0x88), R184: sensitivity. -/
  | wsSens88 (p : List Byte)
  /-- `WS_INIT_81`, pair (0x05, 0x81), R185: init complete. -/
  | wsInit81 (p : List Byte)
  /-- `DR_MOV_01`, pair (0x07, 0x01), R186: distance. -/
  | drMov01 (p : List Byte)
  /-- `DR_MOV_81`, pair (0x07, 0x81), R187: distance. -/
  | drMov81 (p : List Byte)
  /-- `DR_STA_04`, pair (0x07, 0x04), R188: distance. -/
  | drSta04 (p : List Byte)
  /-- `DR_STA_84`, pair (0x07, 0x84), R189: distance. -/
  | drSta84 (p : List Byte)
  /-- `OI_SW_00`, pair (0x08, 0x00), R200: output switch. -/
  | oiSw00 (p : List Byte)
  /-- `OI_SW_80`, pair (0x08, 0x80), R201: output switch. -/
  | oiSw80 (p : List Byte)
  /-- `OI_BURST_01`, pair (0x08, 0x01), R203: spatial static, static distance, spatial motion, motion distance, motion speed. -/
  | oiBurst01 (p : List Byte)
  /-- `OI_APPR_06`, pair (0x08, 0x06), R204: approach. -/
  | oiAppr06 (p : List Byte)
  /-- `OI_AMPL_07`, pair (0x08, 0x07), R205: amplitude. -/
  | oiAmpl07 (p : List Byte)
  /-- `OI_AMPL_87`, pair (0x08, 0x87), R206: amplitude. -/
  | oiAmpl87 (p : List Byte)
  /-- `OI_JTH_08`, pair (0x08, 0x08), R207: judgment threshold. -/
  | oiJth08 (p : List Byte)
  /-- `OI_JTH_88`, pair (0x08, 0x88), R208: judgment threshold. -/
  | oiJth88 (p : List Byte)
  /-- `OI_ATH_09`, pair (0x08, 0x09), R209: amplitude trigger threshold. -/
  | oiAth09 (p : List Byte)
  /-- `OI_ATH_89`, pair (0x08, 0x89), R210: amplitude trigger threshold. -/
  | oiAth89 (p : List Byte)
  /-- `OI_PBD_0A`, pair (0x08, 0x0A), R211: perception boundary. -/
  | oiPbd0A (p : List Byte)
  /-- `OI_PBD_8A`, pair (0x08, 0x8A), R212: perception boundary. -/
  | oiPbd8A (p : List Byte)
  /-- `OI_TBD_0B`, pair (0x08, 0x0B), R213: trigger boundary. -/
  | oiTbd0B (p : List Byte)
  /-- `OI_TBD_8B`, pair (0x08, 0x8B), R214: trigger boundary. -/
  | oiTbd8B (p : List Byte)
  /-- `OI_TTRIG_0C`, pair (0x08, 0x0C), R215: motion trigger time. -/
  | oiTtrig0C (p : List Byte)
  /-- `OI_TTRIG_8C`, pair (0x08, 0x8C), R216: motion trigger time. -/
  | oiTtrig8C (p : List Byte)
  /-- `OI_TREST_0D`, pair (0x08, 0x0D), R217: movement to rest time. -/
  | oiTrest0D (p : List Byte)
  /-- `OI_TREST_8D`, pair (0x08, 0x8D), R218: movement to rest time. -/
  | oiTrest8D (p : List Byte)
  /-- `OI_TUNM_0E`, pair (0x08, 0x0E), R219: enter unmanned time. -/
  | oiTunm0E (p : List Byte)
  /-- `OI_TUNM_8E`, pair (0x08, 0x8E), R220: enter unmanned time. -/
  | oiTunm8E (p : List Byte)
  /-- `OI_PDIST_83`, pair (0x08, 0x83), R221: presence distance. -/
  | oiPdist83 (p : List Byte)
  /-- `HU_PRES_01`, pair (0x80, 0x01), R240: presence. -/
  | huPres01 (p : List Byte)
  /-- `HU_PRES_81`, pair (0x80, 0x81), R241: presence. -/
  | huPres81 (p : List Byte)
  /-- `HU_MOT_02`, pair (0x80, 0x02), R242: motion state. -/
  | huMot02 (p : List Byte)
  /-- `HU_MOT_82`, pair (0x80, 0x82), R243: motion state. -/
  | huMot82 (p : List Byte)
  /-- `HU_AMPL_03`, pair (0x80, 0x03), R244: amplitude. -/
  | huAmpl03 (p : List Byte)
  /-- `HU_AMPL_83`, pair (0x80, 0x83), R245: amplitude. -/
  | huAmpl83 (p : List Byte)
  /-- `HU_UNM_0A`, pair (0x80, 0x0A), R246: unmanned duration. -/
  | huUnm0A (p : List Byte)
  /-- `HU_UNM_8A`, pair (0x80, 0x8A), R247: unmanned duration. -/
  | huUnm8A (p : List Byte)
  /-- `HU_APPR_0B`, pair (0x80, 0x0B), R248: approach. -/
  | huAppr0B (p : List Byte)
  /-- `HU_APPR_8B`, pair (0x80, 0x8B), R249: approach. -/
  | huAppr8B (p : List Byte)
deriving DecidableEq, Repr

/-- The payload of an instruction, `P(0) .. P(n-1)` (00_scope R12). -/
def Instr.payload : Instr → List Byte
  | .sysHb p => p
  | .sysRst p => p
  | .prdA1 p => p
  | .prdA2 p => p
  | .prdA3 p => p
  | .prdA4 p => p
  | .prdProto p => p
  | .wsScene01 p => p
  | .wsScene07 p => p
  | .wsScene87 p => p
  | .wsSens08 p => p
  | .wsSens88 p => p
  | .wsInit81 p => p
  | .drMov01 p => p
  | .drMov81 p => p
  | .drSta04 p => p
  | .drSta84 p => p
  | .oiSw00 p => p
  | .oiSw80 p => p
  | .oiBurst01 p => p
  | .oiAppr06 p => p
  | .oiAmpl07 p => p
  | .oiAmpl87 p => p
  | .oiJth08 p => p
  | .oiJth88 p => p
  | .oiAth09 p => p
  | .oiAth89 p => p
  | .oiPbd0A p => p
  | .oiPbd8A p => p
  | .oiTbd0B p => p
  | .oiTbd8B p => p
  | .oiTtrig0C p => p
  | .oiTtrig8C p => p
  | .oiTrest0D p => p
  | .oiTrest8D p => p
  | .oiTunm0E p => p
  | .oiTunm8E p => p
  | .oiPdist83 p => p
  | .huPres01 p => p
  | .huPres81 p => p
  | .huMot02 p => p
  | .huMot82 p => p
  | .huAmpl03 p => p
  | .huAmpl83 p => p
  | .huUnm0A p => p
  | .huUnm8A p => p
  | .huAppr0B p => p
  | .huAppr8B p => p

end Sys2Proof
end

