-- ==== Sys2Proof/WellFormed.lean ====
section
/-! DEFINITION. When an instruction is one that a frame can carry: its payload is within `MAX_PAYLOAD` (30_encoding R92,
R104). Everything else about an instruction is right by its type. -/

namespace Sys2Proof

/-- A frame can carry the payload: `data_len <= 32` (41_frame_decoder R137). -/
def Instr.payloadFits (i : Instr) : Bool := decide (i.payload.length ≤ Config.maxPayload)

/-- An instruction that some frame encodes. -/
def Instr.wellFormed (i : Instr) : Bool := i.payloadFits

end Sys2Proof
end

