-- ==== Sys2Proof/Decode.lean ====
section
/-! DEFINITION. The dispatch ROM, the decoder of a whole frame, and the encoder (30_encoding). The ROM look-up is the one
the machine dispatches with; the whole-frame decoder states which byte strings are frames of the 48 commands and names
the first check a byte string fails, in the order of 60_exceptions R314. -/

namespace Sys2Proof

/-- What the dispatch ROM answers for a pair (30 R100, R102, R103; 42 R160). -/
inductive RomResult where
  /-- The pair is one of the 48 rows. -/
  | row (i : Instr)
  /-- The control word is none of the six family values: `E_UNK_CTRL`, whatever the command word is. -/
  | unknownControl (ctrl cmd : Byte)
  /-- The control word is known and the command word is not in that family's rows: `E_UNK_CMD`. -/
  | unknownCommand (ctrl cmd : Byte)
deriving DecidableEq, Repr

/-- The System family's rows, control word 0x01 (30 R100). -/
def romSystem (cmd : Byte) (p : List Byte) : RomResult :=
  match cmd with
  | 0x01#8 => .row (.sysHb p)
  | 0x02#8 => .row (.sysRst p)
  | _ => .unknownCommand 0x01#8 cmd

/-- The Product family's rows, control word 0x02 (30 R100). -/
def romProduct (cmd : Byte) (p : List Byte) : RomResult :=
  match cmd with
  | 0xA1#8 => .row (.prdA1 p)
  | 0xA2#8 => .row (.prdA2 p)
  | 0xA3#8 => .row (.prdA3 p)
  | 0xA4#8 => .row (.prdA4 p)
  | 0xA5#8 => .row (.prdProto p)
  | _ => .unknownCommand 0x02#8 cmd

/-- The WorkStatus family's rows, control word 0x05 (30 R100). -/
def romWorkStatus (cmd : Byte) (p : List Byte) : RomResult :=
  match cmd with
  | 0x01#8 => .row (.wsScene01 p)
  | 0x07#8 => .row (.wsScene07 p)
  | 0x87#8 => .row (.wsScene87 p)
  | 0x08#8 => .row (.wsSens08 p)
  | 0x88#8 => .row (.wsSens88 p)
  | 0x81#8 => .row (.wsInit81 p)
  | _ => .unknownCommand 0x05#8 cmd

/-- The DetectionRange family's rows, control word 0x07 (30 R100). -/
def romDetectionRange (cmd : Byte) (p : List Byte) : RomResult :=
  match cmd with
  | 0x01#8 => .row (.drMov01 p)
  | 0x81#8 => .row (.drMov81 p)
  | 0x04#8 => .row (.drSta04 p)
  | 0x84#8 => .row (.drSta84 p)
  | _ => .unknownCommand 0x07#8 cmd

/-- The OpenInfo family's rows, control word 0x08 (30 R100). -/
def romOpenInfo (cmd : Byte) (p : List Byte) : RomResult :=
  match cmd with
  | 0x00#8 => .row (.oiSw00 p)
  | 0x80#8 => .row (.oiSw80 p)
  | 0x01#8 => .row (.oiBurst01 p)
  | 0x06#8 => .row (.oiAppr06 p)
  | 0x07#8 => .row (.oiAmpl07 p)
  | 0x87#8 => .row (.oiAmpl87 p)
  | 0x08#8 => .row (.oiJth08 p)
  | 0x88#8 => .row (.oiJth88 p)
  | 0x09#8 => .row (.oiAth09 p)
  | 0x89#8 => .row (.oiAth89 p)
  | 0x0A#8 => .row (.oiPbd0A p)
  | 0x8A#8 => .row (.oiPbd8A p)
  | 0x0B#8 => .row (.oiTbd0B p)
  | 0x8B#8 => .row (.oiTbd8B p)
  | 0x0C#8 => .row (.oiTtrig0C p)
  | 0x8C#8 => .row (.oiTtrig8C p)
  | 0x0D#8 => .row (.oiTrest0D p)
  | 0x8D#8 => .row (.oiTrest8D p)
  | 0x0E#8 => .row (.oiTunm0E p)
  | 0x8E#8 => .row (.oiTunm8E p)
  | 0x83#8 => .row (.oiPdist83 p)
  | _ => .unknownCommand 0x08#8 cmd

/-- The Human family's rows, control word 0x80 (30 R100). -/
def romHuman (cmd : Byte) (p : List Byte) : RomResult :=
  match cmd with
  | 0x01#8 => .row (.huPres01 p)
  | 0x81#8 => .row (.huPres81 p)
  | 0x02#8 => .row (.huMot02 p)
  | 0x82#8 => .row (.huMot82 p)
  | 0x03#8 => .row (.huAmpl03 p)
  | 0x83#8 => .row (.huAmpl83 p)
  | 0x0A#8 => .row (.huUnm0A p)
  | 0x8A#8 => .row (.huUnm8A p)
  | 0x0B#8 => .row (.huAppr0B p)
  | 0x8B#8 => .row (.huAppr8B p)
  | _ => .unknownCommand 0x80#8 cmd

/-- The dispatch ROM: the control word first, exact match against the six family values, then the command word, exact match
against that family's rows (30 R101, 42 R160). It is constant (20 R62). -/
def romLookup (ctrl cmd : Byte) (p : List Byte) : RomResult :=
  match ctrl with
  | 0x01#8 => romSystem cmd p
  | 0x02#8 => romProduct cmd p
  | 0x05#8 => romWorkStatus cmd p
  | 0x07#8 => romDetectionRange cmd p
  | 0x08#8 => romOpenInfo cmd p
  | 0x80#8 => romHuman cmd p
  | _ => .unknownControl ctrl cmd

/-- The control word of a row (30 R100). -/
def Instr.control : Instr → Byte
  | .sysHb _ => 0x01#8
  | .sysRst _ => 0x01#8
  | .prdA1 _ => 0x02#8
  | .prdA2 _ => 0x02#8
  | .prdA3 _ => 0x02#8
  | .prdA4 _ => 0x02#8
  | .prdProto _ => 0x02#8
  | .wsScene01 _ => 0x05#8
  | .wsScene07 _ => 0x05#8
  | .wsScene87 _ => 0x05#8
  | .wsSens08 _ => 0x05#8
  | .wsSens88 _ => 0x05#8
  | .wsInit81 _ => 0x05#8
  | .drMov01 _ => 0x07#8
  | .drMov81 _ => 0x07#8
  | .drSta04 _ => 0x07#8
  | .drSta84 _ => 0x07#8
  | .oiSw00 _ => 0x08#8
  | .oiSw80 _ => 0x08#8
  | .oiBurst01 _ => 0x08#8
  | .oiAppr06 _ => 0x08#8
  | .oiAmpl07 _ => 0x08#8
  | .oiAmpl87 _ => 0x08#8
  | .oiJth08 _ => 0x08#8
  | .oiJth88 _ => 0x08#8
  | .oiAth09 _ => 0x08#8
  | .oiAth89 _ => 0x08#8
  | .oiPbd0A _ => 0x08#8
  | .oiPbd8A _ => 0x08#8
  | .oiTbd0B _ => 0x08#8
  | .oiTbd8B _ => 0x08#8
  | .oiTtrig0C _ => 0x08#8
  | .oiTtrig8C _ => 0x08#8
  | .oiTrest0D _ => 0x08#8
  | .oiTrest8D _ => 0x08#8
  | .oiTunm0E _ => 0x08#8
  | .oiTunm8E _ => 0x08#8
  | .oiPdist83 _ => 0x08#8
  | .huPres01 _ => 0x80#8
  | .huPres81 _ => 0x80#8
  | .huMot02 _ => 0x80#8
  | .huMot82 _ => 0x80#8
  | .huAmpl03 _ => 0x80#8
  | .huAmpl83 _ => 0x80#8
  | .huUnm0A _ => 0x80#8
  | .huUnm8A _ => 0x80#8
  | .huAppr0B _ => 0x80#8
  | .huAppr8B _ => 0x80#8

/-- The command word of a row (30 R100). -/
def Instr.command : Instr → Byte
  | .sysHb _ => 0x01#8
  | .sysRst _ => 0x02#8
  | .prdA1 _ => 0xA1#8
  | .prdA2 _ => 0xA2#8
  | .prdA3 _ => 0xA3#8
  | .prdA4 _ => 0xA4#8
  | .prdProto _ => 0xA5#8
  | .wsScene01 _ => 0x01#8
  | .wsScene07 _ => 0x07#8
  | .wsScene87 _ => 0x87#8
  | .wsSens08 _ => 0x08#8
  | .wsSens88 _ => 0x88#8
  | .wsInit81 _ => 0x81#8
  | .drMov01 _ => 0x01#8
  | .drMov81 _ => 0x81#8
  | .drSta04 _ => 0x04#8
  | .drSta84 _ => 0x84#8
  | .oiSw00 _ => 0x00#8
  | .oiSw80 _ => 0x80#8
  | .oiBurst01 _ => 0x01#8
  | .oiAppr06 _ => 0x06#8
  | .oiAmpl07 _ => 0x07#8
  | .oiAmpl87 _ => 0x87#8
  | .oiJth08 _ => 0x08#8
  | .oiJth88 _ => 0x88#8
  | .oiAth09 _ => 0x09#8
  | .oiAth89 _ => 0x89#8
  | .oiPbd0A _ => 0x0A#8
  | .oiPbd8A _ => 0x8A#8
  | .oiTbd0B _ => 0x0B#8
  | .oiTbd8B _ => 0x8B#8
  | .oiTtrig0C _ => 0x0C#8
  | .oiTtrig8C _ => 0x8C#8
  | .oiTrest0D _ => 0x0D#8
  | .oiTrest8D _ => 0x8D#8
  | .oiTunm0E _ => 0x0E#8
  | .oiTunm8E _ => 0x8E#8
  | .oiPdist83 _ => 0x83#8
  | .huPres01 _ => 0x01#8
  | .huPres81 _ => 0x81#8
  | .huMot02 _ => 0x02#8
  | .huMot82 _ => 0x82#8
  | .huAmpl03 _ => 0x03#8
  | .huAmpl83 _ => 0x83#8
  | .huUnm0A _ => 0x0A#8
  | .huUnm8A _ => 0x8A#8
  | .huAppr0B _ => 0x0B#8
  | .huAppr8B _ => 0x8B#8

/-- The bytes of a frame before its checksum: header, pair, big-endian `data_len`, payload (30 R108). -/
def frameBody (cc ss : Byte) (p : List Byte) : List Byte :=
  [Config.hdr0, Config.hdr1, cc, ss, BitVec.ofNat 8 (p.length / 256), BitVec.ofNat 8 p.length] ++ p

/-- `FRAME(cc, ss, p)` (30 R107, R108): the complete frame with the correct checksum and the tail. -/
def frame (cc ss : Byte) (p : List Byte) : List Byte :=
  frameBody cc ss p ++ [Machine.sum8 (frameBody cc ss p), Config.tail0, Config.tail1]

/-- The bytes of an instruction, first byte first on the wire. -/
def encode (i : Instr) : List Byte := frame i.control i.command i.payload

/-- Why a byte string is not a frame of one of the 48 commands. -/
inductive Reject where
  /-- Fewer than the six bytes that give the length. -/
  | tooShort
  /-- Byte 0 is not 0x53 (41 R132). -/
  | header0
  /-- Byte 1 is not 0x59 (41 R133, `E_HDR2`). -/
  | header1
  /-- The high length byte is above 4 (41 R136, `E_LEN_HI`). -/
  | lengthHigh
  /-- The total length is above 32 (41 R137, `E_LEN_OVER`). -/
  | lengthOver
  /-- The byte string is not `data_len + 9` bytes long (30 R92). -/
  | wrongSize
  /-- Byte N-2 is not 0x54 (41 R140, `E_TAIL1`). -/
  | tail0
  /-- Byte N-1 is not 0x43 (41 R141, `E_TAIL2`). -/
  | tail1
  /-- The checksum byte is not the sum (41 R142, `E_CKSUM`). -/
  | badChecksum
  /-- The control word is unknown (`E_UNK_CTRL`). -/
  | unknownControl (ctrl cmd : Byte)
  /-- The command word is unknown under a known control word (`E_UNK_CMD`). -/
  | unknownCommand (ctrl cmd : Byte)
deriving DecidableEq, Repr

/-- The decoder's answer: an instruction, or a rejection by name. -/
inductive Decoded where
  | instr (i : Instr)
  | reject (r : Reject)
deriving DecidableEq, Repr

/-- The ROM's answer as the decoder's. -/
def RomResult.decoded : RomResult → Decoded
  | .row i => .instr i
  | .unknownControl c k => .reject (.unknownControl c k)
  | .unknownCommand c k => .reject (.unknownCommand c k)

/-- The checks after the length: size, tail bytes, checksum, then the ROM (60 R314). `n` is `data_len`, `rest` the bytes
from frame offset 6 on. -/
def decodeRest (bs : List Byte) (cc ss : Byte) (n : Nat) (rest : List Byte) : Decoded :=
  if rest.length ≠ n + 3 then .reject .wrongSize
  else if Machine.byteAt rest (n + 1) ≠ Config.tail0 then .reject .tail0
  else if Machine.byteAt rest (n + 2) ≠ Config.tail1 then .reject .tail1
  else if Machine.verify bs then (romLookup cc ss (rest.take n)).decoded
  else .reject .badChecksum

/-- The decoder of a whole frame, total on any bytes (30 R90, R91; checks in the order of 60 R314). -/
def decode (bs : List Byte) : Decoded :=
  match bs with
  | h0 :: h1 :: cc :: ss :: ll :: lo :: rest =>
    if h0 ≠ Config.hdr0 then .reject .header0
    else if h1 ≠ Config.hdr1 then .reject .header1
    else if Config.lenHiMax < ll.toNat then .reject .lengthHigh
    else if Config.maxPayload < ll.toNat * 256 + lo.toNat then .reject .lengthOver
    else decodeRest bs cc ss (ll.toNat * 256 + lo.toNat) rest
  | _ => .reject .tooShort

/-- The instruction of an answer, none for a rejection. -/
def Decoded.toOption : Decoded → Option Instr
  | .instr i => some i
  | .reject _ => none

/-- The frame that an opcode-table word stands for. The table numbers the 16 bits of the pair, the control word in bits 15
to 8 (30 R110); every bit above them is 0, so `data_len` is 0 and the payload is empty; header, checksum and tail are
fixed by the frame format (notes/assumptions/10.md). -/
def tableFrame (w : Nat) : List Byte := frame (BitVec.ofNat 8 (w / 256)) (BitVec.ofNat 8 w) []

/-- The instruction the decoder reads from an opcode-table word. Every row of the table has 16 bits. -/
def decodeTableWord (nbits w : Nat) : Option Instr :=
  if nbits = 16 then (decode (tableFrame w)).toOption else none

/-- The query template `QUERY(cc, ss) = FRAME(cc, ss, [0x0F])`, the one pseudo-instruction (30 R109, 47 R264). -/
def query (cc ss : Byte) : List Byte := frame cc ss [Config.queryByte]

/-- The 22 pairs the Query Encoder sends (47 R265), in table order. -/
def queryPairs : List (Byte × Byte) :=
  [(0x01#8, 0x01#8), (0x02#8, 0xA1#8), (0x02#8, 0xA2#8), (0x02#8, 0xA3#8), (0x02#8, 0xA4#8), (0x02#8, 0xA5#8),
   (0x05#8, 0x81#8), (0x05#8, 0x87#8), (0x05#8, 0x88#8), (0x07#8, 0x81#8), (0x07#8, 0x84#8), (0x80#8, 0x81#8),
   (0x80#8, 0x8A#8), (0x08#8, 0x80#8), (0x08#8, 0x83#8), (0x08#8, 0x88#8), (0x08#8, 0x89#8), (0x08#8, 0x8A#8),
   (0x08#8, 0x8B#8), (0x08#8, 0x8C#8), (0x08#8, 0x8D#8), (0x08#8, 0x8E#8)]

end Sys2Proof
end

