-- ==== Sys2Proof/Machine/State.lean ====
section
/-! DEFINITION. The state of one instance of the block (10_state R20, "Nothing else is state"), the events it puts out, the
requests it takes, and its state right after reset (10_state R45, 70 R340). Plain data throughout. -/

namespace Sys2Proof.Machine

/-- The decoder state `st`, the block's program counter: each value is the byte the decoder waits for (10 R21). -/
inductive DecState where
  /-- waits for the first header byte, 0x53 -/
  | idle
  /-- waits for the second header byte, 0x59 -/
  | sawHeader1
  /-- waits for the control word -/
  | readControl
  /-- waits for the command word -/
  | readCommand
  /-- waits for the high byte of `data_len` -/
  | readLenHi
  /-- waits for the low byte of `data_len` -/
  | readLenLo
  /-- waits for a payload byte -/
  | readPayload
  /-- waits for the checksum byte -/
  | readChecksum
  /-- waits for the first tail byte, 0x54 -/
  | sawTail1
  /-- waits for the second tail byte, 0x43 -/
  | sawTail2
deriving DecidableEq, Repr

/-- The Device Dialect (10 R31). -/
inductive Dialect where
  | unknown
  | standardProtocol
  | customProtocol
deriving DecidableEq, Repr

/-- The metric ids of published values (10 R48). -/
inductive Metric where
  | heartbeat
  | productA1
  | productA2
  | productA3
  | productA4
  | protocolType
  | sceneMode
  | sensitivity
  | initComplete
  | movingMaxDist
  | staticMaxDist
  | outputSwitch
  | spatialStatic
  | staticDist
  | spatialMotion
  | motionDist
  | motionSpeed
  | approach
  | moveAmpl
  | judgeThresh
  | amplTrigThresh
  | perceptionBoundary
  | triggerBoundary
  | triggerTime
  | restTime
  | unmannedTime
  | presenceDist
  | presence
  | motionState
  | unmannedDuration
deriving DecidableEq, Repr

/-- The protocol types (42 R168). -/
inductive ProtocolType where
  | common
  | tuyaWifi
  | unknown
deriving DecidableEq, Repr

/-- The value of a `Pub` event, one constructor for each type of 10 R47. -/
inductive Value where
  | bool (v : Bool)
  | u8 (v : Byte)
  | u16 (v : BitVec 16)
  | u32 (v : BitVec 32)
  /-- the real value is the integer times 0.5 -/
  | half8 (v : Byte)
  /-- two's complement, -10 to 245; the real value is the integer times 0.5 -/
  | shalf (v : BitVec 9)
  /-- a range-checked index -/
  | idx (v : Byte)
  | protocol (v : ProtocolType)
  /-- payload bytes in wire order -/
  | bytes (v : List Byte)
deriving DecidableEq, Repr

/-- The errors with the information each carries (60 R301). The first six are the Frame Decoder's, the rest the Command
Dispatcher's. -/
inductive Err where
  /-- `E_HDR2`, code 1: the offending byte -/
  | hdr2 (b : Byte)
  /-- `E_LEN_HI`, code 2: the offending byte -/
  | lenHi (b : Byte)
  /-- `E_LEN_OVER`, code 3: the refused total -/
  | lenOver (t : Nat)
  /-- `E_TAIL1`, code 4: the offending byte -/
  | tail1 (b : Byte)
  /-- `E_TAIL2`, code 5: the offending byte -/
  | tail2 (b : Byte)
  /-- `E_CKSUM`, code 6: computed sum and received checksum byte -/
  | cksum (computed received : Byte)
  /-- `E_UNK_CTRL`, code 7 -/
  | unkCtrl (ctrl cmd : Byte)
  /-- `E_UNK_CMD`, code 8 -/
  | unkCmd (ctrl cmd : Byte)
  /-- `E_RANGE`, code 9: the refused value -/
  | range (ctrl cmd v : Byte)
  /-- `E_OVERSTR`, code 10: the payload length -/
  | overstr (ctrl cmd : Byte) (n : Nat)
  /-- `E_SHORT`, code 11: bytes wanted and bytes present -/
  | short (ctrl cmd : Byte) (k n : Nat)
deriving DecidableEq, Repr

/-- The log codes; the one non-error log is the reset reply's (60 R322). -/
inductive LogCode where
  | resetReply
deriving DecidableEq, Repr

/-- An output event (00 R13). -/
inductive Event where
  | pub (m : Metric) (v : Value)
  | err (e : Err)
  | log (c : LogCode)
deriving DecidableEq, Repr

/-- What is asked of the block: one of the three steps (00 R14), or `rx` and `hb_take` in one cycle (20 R75, 70 R354). -/
inductive Request where
  /-- the transport delivers a byte -/
  | rx (b : Byte)
  /-- the host consumes the heartbeat register -/
  | hbTake
  /-- the host resets the block -/
  | reset
  /-- a byte arrives and the host consumes the heartbeat register in the same cycle -/
  | rxAndTake (b : Byte)
deriving DecidableEq, Repr

/-- The eight slots of the Change Cache (10 R40, R41). In each, `none` is the spec's "no value". -/
structure Cache where
  moveAmpl : Option (BitVec 8)
  spatialStatic : Option (BitVec 8)
  spatialMotion : Option (BitVec 8)
  motionDist : Option (BitVec 8)
  /-- 9 bits signed, half units -/
  motionSpeed : Option (BitVec 9)
  triggerTime : Option (BitVec 32)
  restTime : Option (BitVec 32)
  unmannedTime : Option (BitVec 32)
deriving DecidableEq, Repr

/-- A cache in which no slot holds a value: the default of `CACHE_INIT` (92 D22). -/
def Cache.empty : Cache :=
  { moveAmpl := none, spatialStatic := none, spatialMotion := none, motionDist := none,
    motionSpeed := none, triggerTime := none, restTime := none, unmannedTime := none }

/-- The open parameters of 00_scope R8. No step writes them (notes/assumptions/4.md). -/
structure Params where
  /-- `BUF_CAP`, any value of 41 or more -/
  bufCap : Nat
  /-- `CACHE_INIT`, what each slot holds after `reset()` -/
  cacheInit : Cache
deriving DecidableEq, Repr

/-- The frame buffer's contents: the (address, byte) pairs that differ from what an unlisted address reads as, by rising
address (`Memory.wf`). -/
abbrev Memory := List Host.Cell

/-- The state of one instance (10 R20), and with it the interface of the step function: the requests to come, the output
list of the latest step, the parameters, and the counter of free order choices. -/
structure State where
  /-- the decoder state (10 R21) -/
  st : DecState
  /-- bytes of the current frame stored so far; the next write position (10 R23) -/
  widx : Nat
  /-- the frame buffer (10 R24) -/
  buf : Memory
  /-- the staged length (10 R26) -/
  lenStage : Nat
  /-- the payload-byte countdown (10 R27) -/
  cnt : Nat
  /-- the Device Dialect register (10 R31) -/
  dialect : Dialect
  /-- the heartbeat tri-state: 255 uninitialized, 0 abnormal, 1 normal (10 R33) -/
  hb : Byte
  /-- the Change Cache (10 R40) -/
  cache : Cache
  /-- MODEL: the requests still to come, first one next (notes/assumptions/1.md) -/
  input : List Request
  /-- MODEL: the output list of the latest step, in order (00 R13; notes/assumptions/2.md) -/
  out : List Event
  /-- MODEL: the open parameters (notes/assumptions/4.md) -/
  params : Params
  /-- MODEL: how many free order choices have been taken (notes/assumptions/5.md) -/
  choices : Nat
deriving DecidableEq, Repr

/-- Why the model stops. No rule of the spec stops the block (60 R315); each of these is an operation outside the domain
for which the spec defines it, in a state that no run from reset reaches (notes/assumptions/8.md). -/
inductive Fault where
  /-- Raised by the store form for an address outside `0 <= a < BUF_CAP` (00 R12). Safe: the model stops where the spec
  defines nothing. -/
  | bufferBounds
  /-- Raised by `ReadPayload` entered with `cnt = 0`, against its precondition `1 <= cnt` (41 R138). Safe, as above. -/
  | countdownUnderflow
  /-- Raised by completion when a read goes outside the snapshot: `MemRead` is "defined only when a + k <= snap_len"
  (00 R12), `verify` only for 3 bytes or more (40 R120). Safe, as above. -/
  | snapshotBounds
deriving DecidableEq, Repr

/-- Why an instruction has no meaning in the model. -/
inductive Refusal where
  /-- Raised by `exec` for an instruction without a meaning, by its mnemonic; no arm uses it. Safe. -/
  | notModelled (mnemonic : String)
deriving DecidableEq, Repr

/-- The block right after `reset()` with the parameters at the spec's defaults (10 R45, 70 R340), nothing asked of it yet. -/
def State.reset : State :=
  { st := .idle, widx := 0, buf := [], lenStage := 0, cnt := 0, dialect := .unknown, hb := 255#8,
    cache := Cache.empty, input := [], out := [],
    params := { bufCap := Config.maxFrame, cacheInit := Cache.empty }, choices := 0 }

end Sys2Proof.Machine
end

