-- ==== Sys2Proof/Machine/Ops.lean ====
section
/-! DEFINITION. The named operations over the frame buffer, the registers and the output list: store and snapshot (20_memory
R69, R80; 10 R28), `publish`, `publish_if_changed`, `log`, `raise` (00 R13; 60 R300), `fd_clear` (41 R131). -/

namespace Sys2Proof.Machine

/-- The outcome of a step or a part of one. -/
abbrev Out := Host.Outcome State Fault Refusal

/-- Go on with the next state, or stop as the first part stopped. -/
def andThen (o : Out) (f : State → Out) : Out :=
  match o with
  | .next s => f s
  | .fault r => .fault r
  | .refused r => .refused r

/-! ### The frame buffer -/

/-- What an address that is not listed reads as: the buffer is "modelled as all zero" at reset (10 R20). -/
def unlistedByte : Byte := 0x00#8

/-- The byte at an address of the buffer. -/
def Memory.read : Memory → Nat → Byte
  | [], _ => unlistedByte
  | (b, w) :: m, a => if a = b then w else Memory.read m a

/-- Write one byte, keeping the canonical form. -/
def Memory.write : Memory → Nat → Byte → Memory
  | [], a, v => if v = unlistedByte then [] else [(a, v)]
  | (b, w) :: m, a, v =>
    if a < b then (if v = unlistedByte then (b, w) :: m else (a, v) :: (b, w) :: m)
    else if a = b then (if v = unlistedByte then m else (a, v) :: m)
    else (b, w) :: Memory.write m a v

/-- The canonical form: addresses strictly rising, and no entry equal to what an unlisted address reads as. -/
def Memory.wf : Memory → Bool
  | [] => true
  | (a, v) :: m => decide (v ≠ unlistedByte) && m.all (fun c => decide (a < c.1)) && Memory.wf m

/-- `MemWrite(a, 1, b); widx <- a + 1`, the one store form (20 R80), defined "for `0 <= a < BUF_CAP`" (00 R12). -/
def store (a : Nat) (b : Byte) (s : State) : Out :=
  if a < s.params.bufCap then .next { s with buf := s.buf.write a b, widx := a + 1 }
  else .fault .bufferBounds

/-- The snapshot `snap[0 .. snap_len-1] = buf[0 .. widx-1]` (10 R28). -/
def snapshot (s : State) : List Byte := (List.range s.widx).map s.buf.read

/-! ### Outputs -/

/-- Append an event to the output list of the step (00 R13). -/
def State.emit (e : Event) (s : State) : State := { s with out := s.out ++ [e] }

/-- `publish(m, v)` (00 R13). -/
def publish (m : Metric) (v : Value) (s : State) : State := s.emit (.pub m v)

/-- `log(c)` (00 R13). -/
def logNote (c : LogCode) (s : State) : State := s.emit (.log c)

/-! ### Raising an error, and the return to `Idle` -/

/-- `fd_clear()`, the return to `Idle` (41 R131). Buffer bytes are not zeroed; no rule reads them afterwards (92 D7). -/
def State.fdClear (s : State) : State := { s with st := .idle, widx := 0, lenStage := 0, cnt := 0 }

/-- Codes 1 to 6 are the Frame Decoder's (60 R300 (a), R301). -/
def Err.ofDecoder : Err → Bool
  | .hdr2 _ => true
  | .lenHi _ => true
  | .lenOver _ => true
  | .tail1 _ => true
  | .tail2 _ => true
  | .cksum _ _ => true
  | .unkCtrl _ _ => false
  | .unkCmd _ _ => false
  | .range _ _ _ => false
  | .overstr _ _ _ => false
  | .short _ _ _ _ => false

/-- `raise E(info)`, the block's one way of taking an exception (60 R300): the event is appended; an error of the Frame
Decoder also drops the frame in progress and returns to `Idle`; an error of the Command Dispatcher changes nothing else.
Nothing is saved and there is nothing to return from (60 R315): the next byte is taken as usual. -/
def raise (e : Err) (s : State) : State :=
  if e.ofDecoder then (s.emit (.err e)).fdClear else s.emit (.err e)

/-! ### The Change Cache -/

/-- The deduplicated metrics, one cache slot each (10 R41). -/
inductive Slot where
  | moveAmpl
  | spatialStatic
  | spatialMotion
  | motionDist
  | motionSpeed
  | triggerTime
  | restTime
  | unmannedTime
deriving DecidableEq, Repr

/-- The width of a slot's value in bits (10 R41, 92 D23). -/
abbrev Slot.width : Slot → Nat
  | .moveAmpl => 8
  | .spatialStatic => 8
  | .spatialMotion => 8
  | .motionDist => 8
  | .motionSpeed => 9
  | .triggerTime => 32
  | .restTime => 32
  | .unmannedTime => 32

/-- The metric a slot deduplicates. -/
def Slot.metric : Slot → Metric
  | .moveAmpl => .moveAmpl
  | .spatialStatic => .spatialStatic
  | .spatialMotion => .spatialMotion
  | .motionDist => .motionDist
  | .motionSpeed => .motionSpeed
  | .triggerTime => .triggerTime
  | .restTime => .restTime
  | .unmannedTime => .unmannedTime

/-- A slot's value as published, with the metric's type of 10 R48. -/
def Slot.value : (m : Slot) → BitVec m.width → Value
  | .moveAmpl, v => .u8 v
  | .spatialStatic, v => .u8 v
  | .spatialMotion, v => .u8 v
  | .motionDist, v => .half8 v
  | .motionSpeed, v => .shalf v
  | .triggerTime, v => .u32 v
  | .restTime, v => .u32 v
  | .unmannedTime, v => .u32 v

/-- `cache[m]`. -/
def Cache.get (c : Cache) : (m : Slot) → Option (BitVec m.width)
  | .moveAmpl => c.moveAmpl
  | .spatialStatic => c.spatialStatic
  | .spatialMotion => c.spatialMotion
  | .motionDist => c.motionDist
  | .motionSpeed => c.motionSpeed
  | .triggerTime => c.triggerTime
  | .restTime => c.restTime
  | .unmannedTime => c.unmannedTime

/-- `cache[m] <- v`. -/
def Cache.put (c : Cache) : (m : Slot) → BitVec m.width → Cache
  | .moveAmpl, v => { c with moveAmpl := some v }
  | .spatialStatic, v => { c with spatialStatic := some v }
  | .spatialMotion, v => { c with spatialMotion := some v }
  | .motionDist, v => { c with motionDist := some v }
  | .motionSpeed, v => { c with motionSpeed := some v }
  | .triggerTime, v => { c with triggerTime := some v }
  | .restTime, v => { c with restTime := some v }
  | .unmannedTime, v => { c with unmannedTime := some v }

/-- `cache[m] <- v` on the state. -/
def State.cachePut (m : Slot) (v : BitVec m.width) (s : State) : State :=
  { s with cache := s.cache.put m v }

/-- `publish_if_changed(m, v)` (00 R13, 10 R44): the compare uses the slot's old content, the slot is written in every case,
and the value is published when it differs or the slot had none. -/
def publishIfChanged (m : Slot) (v : BitVec m.width) (s : State) : State :=
  if s.cache.get m = some v then s.cachePut m v
  else publish m.metric (m.value v) (s.cachePut m v)

end Sys2Proof.Machine
end

