-- ==== Sys2Proof/Machine/Operands.lean ====
section
/-! DEFINITION. The operand forms of the commands (30_encoding R95 to R99) and the two helpers of every command rule,
`have` and `check` (42 R161). `cc` and `ss` are the command's pair, which its errors carry; `p` is the payload and
`p.length` is `n`. -/

namespace Sys2Proof.Machine

/-- `have(k)` (42 R161, 20 R66): the field reaches up to payload byte `k - 1`. If it is inside the payload go on with `f`,
else the field is short: report it, read nothing, write nothing. -/
def haveBytes (cc ss : Byte) (p : List Byte) (k : Nat) (f : State → State) (s : State) : State :=
  if k ≤ p.length then f s else raise (.short cc ss k p.length) s

/-- `check(m, v, lo, hi)`: the range-checked publish of an index (42 R161, 30 R98). -/
def checkRange (cc ss : Byte) (m : Metric) (v : Byte) (lo hi : Nat) (s : State) : State :=
  if lo ≤ v.toNat ∧ v.toNat ≤ hi then publish m (.idx v) s else raise (.range cc ss v) s

/-- A byte as a boolean: non-zero is true (30 R97). -/
def boolOf (b : Byte) : Bool := decide (b ≠ 0x00#8)

/-- A field of `8 * k` bits at payload offset `j`, big-endian and unsigned (30 R95). -/
def fieldAt (p : List Byte) (j k : Nat) : Nat := bigEndian ((p.drop j).take k)

/-- The 16-bit field at payload offset 0 (30 R95). -/
def u16Of (p : List Byte) : BitVec 16 := BitVec.ofNat 16 (fieldAt p 0 2)

/-- The 32-bit field at payload offset 0 (30 R95). -/
def u32Of (p : List Byte) : BitVec 32 := BitVec.ofNat 32 (fieldAt p 0 4)

/-- The motion speed in half units: the raw byte minus 10, a signed subtraction that does not wrap (30 R96), in the 9-bit
two's complement of its slot (10 R41). -/
def speedOf (b : Byte) : BitVec 9 := BitVec.ofInt 9 ((b.toNat : Int) - 10)

/-- The protocol type of a code (42 R168): 1 common, 3 Tuya Wi-Fi, every other code unknown. -/
def protocolOf (b : Byte) : ProtocolType :=
  if b = 0x01#8 then .common else if b = 0x03#8 then .tuyaWifi else .unknown

/-- The dialect an output-switch byte selects (10 R31): non-zero custom, zero standard. -/
def dialectOf (b : Byte) : Dialect := if b ≠ 0x00#8 then .customProtocol else .standardProtocol

/-- A range-checked index at payload offset 0. -/
def indexField (cc ss : Byte) (m : Metric) (lo hi : Nat) (p : List Byte) (s : State) : State :=
  haveBytes cc ss p 1 (checkRange cc ss m (byteAt p 0) lo hi) s

/-- A raw byte at payload offset 0, published unchanged (30 R99). -/
def rawField (cc ss : Byte) (m : Metric) (p : List Byte) (s : State) : State :=
  haveBytes cc ss p 1 (publish m (.u8 (byteAt p 0))) s

/-- A boolean byte at payload offset 0 (30 R97). -/
def boolField (cc ss : Byte) (m : Metric) (p : List Byte) (s : State) : State :=
  haveBytes cc ss p 1 (publish m (.bool (boolOf (byteAt p 0)))) s

/-- A 16-bit distance at payload offset 0 (43 R186). -/
def distanceField (cc ss : Byte) (m : Metric) (p : List Byte) (s : State) : State :=
  haveBytes cc ss p 2 (publish m (.u16 (u16Of p))) s

/-- The movement amplitude, a byte gated by the cache slot that four commands share (10 R43). -/
def amplitudeField (cc ss : Byte) (p : List Byte) (s : State) : State :=
  haveBytes cc ss p 1 (publishIfChanged .moveAmpl (byteAt p 0)) s

/-- A 32-bit timer gated by its cache slot (44 section 5). -/
def timerField (cc ss : Byte) (m : Slot) (v : BitVec m.width) (p : List Byte) (s : State) : State :=
  haveBytes cc ss p 4 (publishIfChanged m v) s

/-- A product string, the whole payload, against the cap of 32 bytes (42 R164). -/
def stringField (cc ss : Byte) (m : Metric) (p : List Byte) (s : State) : State :=
  if Config.strCap < p.length then raise (.overstr cc ss p.length) s else publish m (.bytes p) s

/-- The output switch: write `dialect`, publish the boolean (44 R200). -/
def switchField (cc ss : Byte) (p : List Byte) (s : State) : State :=
  haveBytes cc ss p 1
    (fun s => publish .outputSwitch (.bool (boolOf (byteAt p 0))) { s with dialect := dialectOf (byteAt p 0) }) s

end Sys2Proof.Machine
end

