-- ==== Sys2Proof/Machine/DetectionRange.lean ====
section
/-! DEFINITION. The DetectionRange family, control word 0x07 (43_dispatch_workstatus_range). Every meaning answers a
next state: the dispatcher's errors are events (60 R300 (b), (c)), never a stop. -/

namespace Sys2Proof.Machine

/-- `DR_MOV_01` (R186): moving-target maximum distance. -/
def execDrMov01 (p : List Byte) (s : State) : Out :=
  .next (distanceField 0x07#8 0x01#8 .movingMaxDist p s)

/-- `DR_MOV_81` (R187): moving-target maximum distance. -/
def execDrMov81 (p : List Byte) (s : State) : Out :=
  .next (distanceField 0x07#8 0x81#8 .movingMaxDist p s)

/-- `DR_STA_04` (R188): static-target maximum distance. -/
def execDrSta04 (p : List Byte) (s : State) : Out :=
  .next (distanceField 0x07#8 0x04#8 .staticMaxDist p s)

/-- `DR_STA_84` (R189): static-target maximum distance. -/
def execDrSta84 (p : List Byte) (s : State) : Out :=
  .next (distanceField 0x07#8 0x84#8 .staticMaxDist p s)

end Sys2Proof.Machine
end

