-- ==== Sys2Proof/Machine/Human.lean ====
section
/-! DEFINITION. The Human family, control word 0x80 (45_dispatch_human). Every meaning answers a
next state: the dispatcher's errors are events (60 R300 (b), (c)), never a stop. -/

namespace Sys2Proof.Machine

/-- `HU_PRES_01` (R240): presence. -/
def execHuPres01 (p : List Byte) (s : State) : Out :=
  .next (boolField 0x80#8 0x01#8 .presence p s)

/-- `HU_PRES_81` (R241): presence. -/
def execHuPres81 (p : List Byte) (s : State) : Out :=
  .next (boolField 0x80#8 0x81#8 .presence p s)

/-- `HU_MOT_02` (R242): motion state index, range-checked. -/
def execHuMot02 (p : List Byte) (s : State) : Out :=
  .next (indexField 0x80#8 0x02#8 .motionState 0 (Config.nTriState - 1) p s)

/-- `HU_MOT_82` (R243): motion state index, range-checked. -/
def execHuMot82 (p : List Byte) (s : State) : Out :=
  .next (indexField 0x80#8 0x82#8 .motionState 0 (Config.nTriState - 1) p s)

/-- `HU_AMPL_03` (R244): movement amplitude through the shared cache slot. -/
def execHuAmpl03 (p : List Byte) (s : State) : Out :=
  .next (amplitudeField 0x80#8 0x03#8 p s)

/-- `HU_AMPL_83` (R245): movement amplitude through the shared cache slot. -/
def execHuAmpl83 (p : List Byte) (s : State) : Out :=
  .next (amplitudeField 0x80#8 0x83#8 p s)

/-- `HU_UNM_0A` (R246): unmanned duration index, range-checked. -/
def execHuUnm0A (p : List Byte) (s : State) : Out :=
  .next (indexField 0x80#8 0x0A#8 .unmannedDuration 0 (Config.nUnmanned - 1) p s)

/-- `HU_UNM_8A` (R247): unmanned duration index, range-checked. -/
def execHuUnm8A (p : List Byte) (s : State) : Out :=
  .next (indexField 0x80#8 0x8A#8 .unmannedDuration 0 (Config.nUnmanned - 1) p s)

/-- `HU_APPR_0B` (R248): approach index, range-checked. -/
def execHuAppr0B (p : List Byte) (s : State) : Out :=
  .next (indexField 0x80#8 0x0B#8 .approach 0 (Config.nTriState - 1) p s)

/-- `HU_APPR_8B` (R249): approach index, range-checked. -/
def execHuAppr8B (p : List Byte) (s : State) : Out :=
  .next (indexField 0x80#8 0x8B#8 .approach 0 (Config.nTriState - 1) p s)

end Sys2Proof.Machine
end

