-- ==== Sys2Proof/Machine/OpenInfo.lean ====
section
/-! DEFINITION. The OpenInfo family, control word 0x08 (44_dispatch_openinfo). Every meaning answers a
next state: the dispatcher's errors are events (60 R300 (b), (c)), never a stop. -/

namespace Sys2Proof.Machine

/-- The five fields of the burst report in payload order, each independent of the others (44 R203): spatial-static value,
static distance (published every time), spatial-motion value, motion distance, motion speed. -/
def burstReport (p : List Byte) (s : State) : State :=
  let s1 := haveBytes 0x08#8 0x01#8 p 1 (publishIfChanged .spatialStatic (byteAt p 0)) s
  let s2 := haveBytes 0x08#8 0x01#8 p 2 (publish .staticDist (.half8 (byteAt p 1))) s1
  let s3 := haveBytes 0x08#8 0x01#8 p 3 (publishIfChanged .spatialMotion (byteAt p 2)) s2
  let s4 := haveBytes 0x08#8 0x01#8 p 4 (publishIfChanged .motionDist (byteAt p 3)) s3
  haveBytes 0x08#8 0x01#8 p 5 (publishIfChanged .motionSpeed (speedOf (byteAt p 4))) s4

/-- `OI_SW_00` (R200): the output switch and the dialect. -/
def execOiSw00 (p : List Byte) (s : State) : Out :=
  .next (switchField 0x08#8 0x00#8 p s)

/-- `OI_SW_80` (R201): the output switch and the dialect. -/
def execOiSw80 (p : List Byte) (s : State) : Out :=
  .next (switchField 0x08#8 0x80#8 p s)

/-- `OI_BURST_01` (R203): the five-field burst report. -/
def execOiBurst01 (p : List Byte) (s : State) : Out :=
  .next (burstReport p s)

/-- `OI_APPR_06` (R204): approach index, range-checked. -/
def execOiAppr06 (p : List Byte) (s : State) : Out :=
  .next (indexField 0x08#8 0x06#8 .approach 0 (Config.nTriState - 1) p s)

/-- `OI_AMPL_07` (R205): movement amplitude through the shared cache slot. -/
def execOiAmpl07 (p : List Byte) (s : State) : Out :=
  .next (amplitudeField 0x08#8 0x07#8 p s)

/-- `OI_AMPL_87` (R206): movement amplitude through the shared cache slot. -/
def execOiAmpl87 (p : List Byte) (s : State) : Out :=
  .next (amplitudeField 0x08#8 0x87#8 p s)

/-- `OI_JTH_08` (R207): judgment threshold, raw byte. -/
def execOiJth08 (p : List Byte) (s : State) : Out :=
  .next (rawField 0x08#8 0x08#8 .judgeThresh p s)

/-- `OI_JTH_88` (R208): judgment threshold, raw byte. -/
def execOiJth88 (p : List Byte) (s : State) : Out :=
  .next (rawField 0x08#8 0x88#8 .judgeThresh p s)

/-- `OI_ATH_09` (R209): amplitude trigger threshold, raw byte. -/
def execOiAth09 (p : List Byte) (s : State) : Out :=
  .next (rawField 0x08#8 0x09#8 .amplTrigThresh p s)

/-- `OI_ATH_89` (R210): amplitude trigger threshold, raw byte. -/
def execOiAth89 (p : List Byte) (s : State) : Out :=
  .next (rawField 0x08#8 0x89#8 .amplTrigThresh p s)

/-- `OI_PBD_0A` (R211): perception boundary index, range-checked. -/
def execOiPbd0A (p : List Byte) (s : State) : Out :=
  .next (indexField 0x08#8 0x0A#8 .perceptionBoundary 1 Config.nBoundary p s)

/-- `OI_PBD_8A` (R212): perception boundary index, range-checked. -/
def execOiPbd8A (p : List Byte) (s : State) : Out :=
  .next (indexField 0x08#8 0x8A#8 .perceptionBoundary 1 Config.nBoundary p s)

/-- `OI_TBD_0B` (R213): trigger boundary index, range-checked. -/
def execOiTbd0B (p : List Byte) (s : State) : Out :=
  .next (indexField 0x08#8 0x0B#8 .triggerBoundary 1 Config.nBoundary p s)

/-- `OI_TBD_8B` (R214): trigger boundary index, range-checked. -/
def execOiTbd8B (p : List Byte) (s : State) : Out :=
  .next (indexField 0x08#8 0x8B#8 .triggerBoundary 1 Config.nBoundary p s)

/-- `OI_TTRIG_0C` (R215): motion trigger time through its cache slot. -/
def execOiTtrig0C (p : List Byte) (s : State) : Out :=
  .next (timerField 0x08#8 0x0C#8 .triggerTime (u32Of p) p s)

/-- `OI_TTRIG_8C` (R216): motion trigger time through its cache slot. -/
def execOiTtrig8C (p : List Byte) (s : State) : Out :=
  .next (timerField 0x08#8 0x8C#8 .triggerTime (u32Of p) p s)

/-- `OI_TREST_0D` (R217): movement to rest time through its cache slot. -/
def execOiTrest0D (p : List Byte) (s : State) : Out :=
  .next (timerField 0x08#8 0x0D#8 .restTime (u32Of p) p s)

/-- `OI_TREST_8D` (R218): movement to rest time through its cache slot. -/
def execOiTrest8D (p : List Byte) (s : State) : Out :=
  .next (timerField 0x08#8 0x8D#8 .restTime (u32Of p) p s)

/-- `OI_TUNM_0E` (R219): enter unmanned time through its cache slot. -/
def execOiTunm0E (p : List Byte) (s : State) : Out :=
  .next (timerField 0x08#8 0x0E#8 .unmannedTime (u32Of p) p s)

/-- `OI_TUNM_8E` (R220): enter unmanned time through its cache slot. -/
def execOiTunm8E (p : List Byte) (s : State) : Out :=
  .next (timerField 0x08#8 0x8E#8 .unmannedTime (u32Of p) p s)

/-- `OI_PDIST_83` (R221): presence distance index, range-checked. -/
def execOiPdist83 (p : List Byte) (s : State) : Out :=
  .next (indexField 0x08#8 0x83#8 .presenceDist 0 (Config.nPresenceDist - 1) p s)

end Sys2Proof.Machine
end

