-- ==== Sys2Proof/Machine/Product.lean ====
section
/-! DEFINITION. The Product family, control word 0x02 (42_dispatch_system_product). Every meaning answers a
next state: the dispatcher's errors are events (60 R300 (b), (c)), never a stop. -/

namespace Sys2Proof.Machine

/-- `PRD_A1` (R164): a product string. -/
def execPrdA1 (p : List Byte) (s : State) : Out :=
  .next (stringField 0x02#8 0xA1#8 .productA1 p s)

/-- `PRD_A2` (R165): a product string. -/
def execPrdA2 (p : List Byte) (s : State) : Out :=
  .next (stringField 0x02#8 0xA2#8 .productA2 p s)

/-- `PRD_A3` (R166): a product string. -/
def execPrdA3 (p : List Byte) (s : State) : Out :=
  .next (stringField 0x02#8 0xA3#8 .productA3 p s)

/-- `PRD_A4` (R167): a product string. -/
def execPrdA4 (p : List Byte) (s : State) : Out :=
  .next (stringField 0x02#8 0xA4#8 .productA4 p s)

/-- `PRD_PROTO` (R168): the protocol type. -/
def execPrdProto (p : List Byte) (s : State) : Out :=
  .next (haveBytes 0x02#8 0xA5#8 p 1 (publish .protocolType (.protocol (protocolOf (byteAt p 0)))) s)

end Sys2Proof.Machine
end

