-- ==== Sys2Proof/Machine/System.lean ====
section
/-! DEFINITION. The System family, control word 0x01 (42_dispatch_system_product). Every meaning answers a
next state: the dispatcher's errors are events (60 R300 (b), (c)), never a stop. -/

namespace Sys2Proof.Machine

/-- `SYS_HB` (R162): `hb <- 1` (Normal); no event; the payload is not read. -/
def execSysHb (_p : List Byte) (s : State) : Out :=
  .next { s with hb := 0x01#8 }

/-- `SYS_RST` (R163): `log(L_RESET_REPLY)` and nothing else; the block is not reset. -/
def execSysRst (_p : List Byte) (s : State) : Out :=
  .next (logNote .resetReply s)

end Sys2Proof.Machine
end

