-- ==== Sys2Proof/Machine/WorkStatus.lean ====
section
/-! DEFINITION. The WorkStatus family, control word 0x05 (43_dispatch_workstatus_range). Every meaning answers a
next state: the dispatcher's errors are events (60 R300 (b), (c)), never a stop. -/

namespace Sys2Proof.Machine

/-- `WS_SCENE_01` (R180): scene index, range-checked. -/
def execWsScene01 (p : List Byte) (s : State) : Out :=
  .next (indexField 0x05#8 0x01#8 .sceneMode 1 Config.nScenes p s)

/-- `WS_SCENE_07` (R181): scene index, range-checked. -/
def execWsScene07 (p : List Byte) (s : State) : Out :=
  .next (indexField 0x05#8 0x07#8 .sceneMode 1 Config.nScenes p s)

/-- `WS_SCENE_87` (R182): scene index, range-checked. -/
def execWsScene87 (p : List Byte) (s : State) : Out :=
  .next (indexField 0x05#8 0x87#8 .sceneMode 1 Config.nScenes p s)

/-- `WS_SENS_08` (R183): sensitivity, raw byte. -/
def execWsSens08 (p : List Byte) (s : State) : Out :=
  .next (rawField 0x05#8 0x08#8 .sensitivity p s)

/-- `WS_SENS_88` (R184): sensitivity, raw byte. -/
def execWsSens88 (p : List Byte) (s : State) : Out :=
  .next (rawField 0x05#8 0x88#8 .sensitivity p s)

/-- `WS_INIT_81` (R185): init complete. -/
def execWsInit81 (p : List Byte) (s : State) : Out :=
  .next (boolField 0x05#8 0x81#8 .initComplete p s)

end Sys2Proof.Machine
end

