-- ==== Sys2Proof/Machine/Dispatch.lean ====
section
/-! DEFINITION. What each command of the dispatch ROM does: one arm per constructor, each one call of its meaning. -/

namespace Sys2Proof.Machine

def exec (i : Instr) (s : State) : Host.Outcome State Fault Refusal :=
  match i with
  | .sysHb p => Sys2Proof.Machine.execSysHb p s
  | .sysRst p => Sys2Proof.Machine.execSysRst p s
  | .prdA1 p => Sys2Proof.Machine.execPrdA1 p s
  | .prdA2 p => Sys2Proof.Machine.execPrdA2 p s
  | .prdA3 p => Sys2Proof.Machine.execPrdA3 p s
  | .prdA4 p => Sys2Proof.Machine.execPrdA4 p s
  | .prdProto p => Sys2Proof.Machine.execPrdProto p s
  | .wsScene01 p => Sys2Proof.Machine.execWsScene01 p s
  | .wsScene07 p => Sys2Proof.Machine.execWsScene07 p s
  | .wsScene87 p => Sys2Proof.Machine.execWsScene87 p s
  | .wsSens08 p => Sys2Proof.Machine.execWsSens08 p s
  | .wsSens88 p => Sys2Proof.Machine.execWsSens88 p s
  | .wsInit81 p => Sys2Proof.Machine.execWsInit81 p s
  | .drMov01 p => Sys2Proof.Machine.execDrMov01 p s
  | .drMov81 p => Sys2Proof.Machine.execDrMov81 p s
  | .drSta04 p => Sys2Proof.Machine.execDrSta04 p s
  | .drSta84 p => Sys2Proof.Machine.execDrSta84 p s
  | .oiSw00 p => Sys2Proof.Machine.execOiSw00 p s
  | .oiSw80 p => Sys2Proof.Machine.execOiSw80 p s
  | .oiBurst01 p => Sys2Proof.Machine.execOiBurst01 p s
  | .oiAppr06 p => Sys2Proof.Machine.execOiAppr06 p s
  | .oiAmpl07 p => Sys2Proof.Machine.execOiAmpl07 p s
  | .oiAmpl87 p => Sys2Proof.Machine.execOiAmpl87 p s
  | .oiJth08 p => Sys2Proof.Machine.execOiJth08 p s
  | .oiJth88 p => Sys2Proof.Machine.execOiJth88 p s
  | .oiAth09 p => Sys2Proof.Machine.execOiAth09 p s
  | .oiAth89 p => Sys2Proof.Machine.execOiAth89 p s
  | .oiPbd0A p => Sys2Proof.Machine.execOiPbd0A p s
  | .oiPbd8A p => Sys2Proof.Machine.execOiPbd8A p s
  | .oiTbd0B p => Sys2Proof.Machine.execOiTbd0B p s
  | .oiTbd8B p => Sys2Proof.Machine.execOiTbd8B p s
  | .oiTtrig0C p => Sys2Proof.Machine.execOiTtrig0C p s
  | .oiTtrig8C p => Sys2Proof.Machine.execOiTtrig8C p s
  | .oiTrest0D p => Sys2Proof.Machine.execOiTrest0D p s
  | .oiTrest8D p => Sys2Proof.Machine.execOiTrest8D p s
  | .oiTunm0E p => Sys2Proof.Machine.execOiTunm0E p s
  | .oiTunm8E p => Sys2Proof.Machine.execOiTunm8E p s
  | .oiPdist83 p => Sys2Proof.Machine.execOiPdist83 p s
  | .huPres01 p => Sys2Proof.Machine.execHuPres01 p s
  | .huPres81 p => Sys2Proof.Machine.execHuPres81 p s
  | .huMot02 p => Sys2Proof.Machine.execHuMot02 p s
  | .huMot82 p => Sys2Proof.Machine.execHuMot82 p s
  | .huAmpl03 p => Sys2Proof.Machine.execHuAmpl03 p s
  | .huAmpl83 p => Sys2Proof.Machine.execHuAmpl83 p s
  | .huUnm0A p => Sys2Proof.Machine.execHuUnm0A p s
  | .huUnm8A p => Sys2Proof.Machine.execHuUnm8A p s
  | .huAppr0B p => Sys2Proof.Machine.execHuAppr0B p s
  | .huAppr8B p => Sys2Proof.Machine.execHuAppr8B p s

end Sys2Proof.Machine
end

