-- ==== Sys2Proof/Machine/FrameDecoder.lean ====
section
/-! DEFINITION. The Frame Decoder (41_frame_decoder): one rule for each of the ten states, completion, and the hand-over of a
validated snapshot to the dispatch ROM (42 R160). -/

namespace Sys2Proof.Machine

/-! ### Dispatch and completion -/

/-- What follows from the ROM's answer: the command's meaning, or `UnknownCommand` and the frame is otherwise discarded
(42 R160, 60 R308, R309). -/
def runRom (r : RomResult) (s : State) : Out :=
  match r with
  | .row i => exec i s
  | .unknownControl c k => .next (raise (.unkCtrl c k) s)
  | .unknownCommand c k => .next (raise (.unkCmd c k) s)

/-- `dispatch(snap)` (42 R160): the pair at offsets 2 and 3, `n = MemRead(4, 2)`, the payload at offset 6. The payload must lie
inside the snapshot, as it does for every snapshot the decoder completes. -/
def dispatch (snap : List Byte) (s : State) : Out :=
  match memRead snap 4 2 with
  | none => .fault .snapshotBounds
  | some n =>
    if 6 + n ≤ snap.length then
      runRom (romLookup (byteAt snap 2) (byteAt snap 3) ((snap.drop 6).take n)) s
    else .fault .snapshotBounds

/-- `complete()` (41 R142): take the snapshot, verify its checksum, dispatch it or report the checksum error. -/
def complete (s : State) : Out :=
  if (snapshot s).length < 3 then .fault .snapshotBounds
  else if verify (snapshot s) then dispatch (snapshot s) s
  else .next (raise (.cksum (checksum (snapshot s)) (checksumByte (snapshot s))) s)

/-! ### One rule per state -/

/-- Store the byte at address `a` and go on to the state `st'` (41 R130, accept and store). -/
def acceptByte (a : Nat) (b : Byte) (st' : DecState) (s : State) : Out :=
  andThen (store a b s) (fun s' => .next { s' with st := st' })

/-- State `Idle` (41 R132): 0x53 starts a frame, every other byte is silently discarded. -/
def rxIdle (b : Byte) (s : State) : Out :=
  if b = Config.hdr0 then acceptByte 0 b .sawHeader1 s else .next s

/-- State `SawHeader1` (41 R133): any byte but 0x59, 0x53 included, is consumed by the abort. -/
def rxSawHeader1 (b : Byte) (s : State) : Out :=
  if b = Config.hdr1 then acceptByte 1 b .readControl s else .next (raise (.hdr2 b) s)

/-- State `ReadControl` (41 R134). -/
def rxReadControl (b : Byte) (s : State) : Out := acceptByte 2 b .readCommand s

/-- State `ReadCommand` (41 R135). -/
def rxReadCommand (b : Byte) (s : State) : Out := acceptByte 3 b .readLenHi s

/-- State `ReadLenHi` (41 R136): a byte up to 4 is staged times 256. -/
def rxReadLenHi (b : Byte) (s : State) : Out :=
  if b.toNat ≤ Config.lenHiMax then
    acceptByte 4 b .readLenLo { s with lenStage := b.toNat * 256 }
  else .next (raise (.lenHi b) s)

/-- State `ReadLenLo` (41 R137): the total, formed without truncation, must be at most 32; a total of 0 skips
`ReadPayload`. -/
def rxReadLenLo (b : Byte) (s : State) : Out :=
  let t := s.lenStage + b.toNat
  if t ≤ Config.maxPayload then
    acceptByte 5 b (if t = 0 then .readChecksum else .readPayload) { s with lenStage := t, cnt := t }
  else .next (raise (.lenOver t) s)

/-- State `ReadPayload` (41 R138), with its precondition `1 <= cnt`. -/
def rxReadPayload (b : Byte) (s : State) : Out :=
  if s.cnt = 0 then .fault .countdownUnderflow
  else acceptByte s.widx b (if s.cnt - 1 = 0 then .readChecksum else .readPayload) { s with cnt := s.cnt - 1 }

/-- State `ReadChecksum` (41 R139): the byte is stored and compared only at completion. -/
def rxReadChecksum (b : Byte) (s : State) : Out := acceptByte s.widx b .sawTail1 s

/-- State `SawTail1` (41 R140), waiting for the first tail byte. -/
def rxSawTail1 (b : Byte) (s : State) : Out :=
  if b = Config.tail0 then acceptByte s.widx b .sawTail2 s else .next (raise (.tail1 b) s)

/-- State `SawTail2` (41 R141), waiting for the second tail byte; `fd_clear()` comes last in both cases. -/
def rxSawTail2 (b : Byte) (s : State) : Out :=
  if b = Config.tail1 then
    andThen (andThen (store s.widx b s) complete) (fun s' => .next s'.fdClear)
  else .next (raise (.tail2 b) s).fdClear

/-- The `rx(b)` step: the rule of the state `st` (41 R130). -/
def rx (b : Byte) (s : State) : Out :=
  match s.st with
  | .idle => rxIdle b s
  | .sawHeader1 => rxSawHeader1 b s
  | .readControl => rxReadControl b s
  | .readCommand => rxReadCommand b s
  | .readLenHi => rxReadLenHi b s
  | .readLenLo => rxReadLenLo b s
  | .readPayload => rxReadPayload b s
  | .readChecksum => rxReadChecksum b s
  | .sawTail1 => rxSawTail1 b s
  | .sawTail2 => rxSawTail2 b s

/-! ### Placing a frame -/

/-- Write bytes to consecutive addresses from `a` on. -/
def writeBytes (m : Memory) (a : Nat) : List Byte → Memory
  | [] => m
  | b :: bs => writeBytes (m.write a b) (a + 1) bs

/-- The state in which the block has received all bytes of a frame but the last, and the last is the next request: what the
`rx` steps of those bytes leave (41 R132 to R140), without running them. -/
def placeFrame (bs : List Byte) (s : State) : State :=
  { s with
    st := .sawTail2
    widx := bs.length - 1
    buf := writeBytes s.buf 0 bs.dropLast
    lenStage := bs.length - Config.frameOverhead
    cnt := 0
    input := .rx (byteAt bs (bs.length - 1)) :: s.input }

end Sys2Proof.Machine
end

