-- ==== Sys2Proof/Machine/HostPort.lean ====
section
/-! DEFINITION. The host interface: `hb_take()` (47 R261), `reset()` (70 R340), the choice of the next step, and the ports of
10_state R46 with the codes they carry. -/

namespace Sys2Proof.Machine

/-- `hb_take()` (47 R261): publish what the register holds unless it is 255, and put it back to 255. -/
def hbTake (s : State) : State :=
  if s.hb = 0xFF#8 then s
  else { publish .heartbeat (.u8 s.hb) s with hb := 0xFF#8 }

/-- `reset()` (70 R340): the decoder as after `fd_clear()`, the buffer modelled as all zero, `dialect`, `hb`, and every cache
slot at `CACHE_INIT`. It puts out no event. Requests still to come and the parameters are not the block's state. -/
def resetBlock (s : State) : State :=
  { s.fdClear with buf := [], dialect := .unknown, hb := 0xFF#8, cache := s.params.cacheInit }

/-- `rx(b)` and `hb_take()` asked for in one cycle: either order (70 R354, 92 D26), a free value. -/
def rxAndTake (b : Byte) (s : State) : Out :=
  if Config.takeFirst s.choices then rx b (hbTake { s with choices := s.choices + 1 })
  else andThen (rx b { s with choices := s.choices + 1 }) (fun s' => .next (hbTake s'))

/-- One request. -/
def serve (r : Request) (s : State) : Out :=
  match r with
  | .rx b => rx b s
  | .hbTake => .next (hbTake s)
  | .reset => .next (resetBlock s)
  | .rxAndTake b => rxAndTake b s

/-- The next step of the block (00 R14, 20 R74): serve the first request with an empty output list; while nothing is asked the
block keeps its state (60 R324) and puts out nothing. -/
def serveNext (s : State) : Out :=
  match s.input with
  | [] => .next { s with out := [] }
  | r :: rest => serve r { s with input := rest, out := [] }

/-! ### The ports -/

/-- The input ports sampled at one clock edge (10 R46). -/
structure PortSample where
  rst : Bool
  rxValid : Bool
  rxData : Byte
  hbTake : Bool
deriving DecidableEq, Repr

/-- What a sample asks for: `rst` has priority over the other two (70 R342). -/
def PortSample.request (p : PortSample) : Option Request :=
  if p.rst then some .reset
  else match p.rxValid, p.hbTake with
    | true, true => some (.rxAndTake p.rxData)
    | true, false => some (.rx p.rxData)
    | false, true => some .hbTake
    | false, false => none

/-- Put what a sequence of samples asks for behind the requests still to come. -/
def State.sampled (ps : List PortSample) (s : State) : State :=
  { s with input := s.input ++ ps.filterMap PortSample.request }

/-- The code of `st` (10 R21). -/
def DecState.code : DecState → Nat
  | .idle => 0
  | .sawHeader1 => 1
  | .readControl => 2
  | .readCommand => 3
  | .readLenHi => 4
  | .readLenLo => 5
  | .readPayload => 6
  | .readChecksum => 7
  | .sawTail1 => 8
  | .sawTail2 => 9

/-- The output port `dialect`, 2 bits (10 R31, R46). -/
def Dialect.code : Dialect → BitVec 2
  | .unknown => 0#2
  | .standardProtocol => 1#2
  | .customProtocol => 2#2

/-- The metric codes (10 R48). -/
def Metric.code : Metric → Nat
  | .heartbeat => 0
  | .productA1 => 1
  | .productA2 => 2
  | .productA3 => 3
  | .productA4 => 4
  | .protocolType => 5
  | .sceneMode => 6
  | .sensitivity => 7
  | .initComplete => 8
  | .movingMaxDist => 9
  | .staticMaxDist => 10
  | .outputSwitch => 11
  | .spatialStatic => 12
  | .staticDist => 13
  | .spatialMotion => 14
  | .motionDist => 15
  | .motionSpeed => 16
  | .approach => 17
  | .moveAmpl => 18
  | .judgeThresh => 19
  | .amplTrigThresh => 20
  | .perceptionBoundary => 21
  | .triggerBoundary => 22
  | .triggerTime => 23
  | .restTime => 24
  | .unmannedTime => 25
  | .presenceDist => 26
  | .presence => 27
  | .motionState => 28
  | .unmannedDuration => 29

/-- The protocol-type codes (92 D29). -/
def ProtocolType.code : ProtocolType → Nat
  | .common => 0
  | .tuyaWifi => 1
  | .unknown => 2

/-- The error codes (60 R301); code 0 is not used. -/
def Err.code : Err → Nat
  | .hdr2 _ => 1
  | .lenHi _ => 2
  | .lenOver _ => 3
  | .tail1 _ => 4
  | .tail2 _ => 5
  | .cksum _ _ => 6
  | .unkCtrl _ _ => 7
  | .unkCmd _ _ => 8
  | .range _ _ _ => 9
  | .overstr _ _ _ => 10
  | .short _ _ _ _ => 11

/-- The source's error classes and the spec's own fifth kind (60 R301). -/
inductive ErrClass where
  | framingError
  | checksumError
  | unknownCommand
  | rangeError
  | oversizeString
  | shortPayload
deriving DecidableEq, Repr

/-- The class of an error (60 R301). -/
def Err.errClass : Err → ErrClass
  | .hdr2 _ => .framingError
  | .lenHi _ => .framingError
  | .lenOver _ => .framingError
  | .tail1 _ => .framingError
  | .tail2 _ => .framingError
  | .cksum _ _ => .checksumError
  | .unkCtrl _ _ => .unknownCommand
  | .unkCmd _ _ => .unknownCommand
  | .range _ _ _ => .rangeError
  | .overstr _ _ _ => .oversizeString
  | .short _ _ _ _ => .shortPayload

/-- The log codes (60 R322); code 0 is not used. -/
def LogCode.code : LogCode → Nat
  | .resetReply => 1

/-- `evt_id`, 6 bits: metric id, error code or log code (10 R46). -/
def Event.portId : Event → BitVec 6
  | .pub m _ => BitVec.ofNat 6 m.code
  | .err e => BitVec.ofNat 6 e.code
  | .log c => BitVec.ofNat 6 c.code

/-- A published value as the plain integer the event port carries, two's complement for `shalf`; none for a `bytes` value,
whose packing the spec leaves open (10 R46, 92 D42). -/
def Value.portValue : Value → Option Nat
  | .bool v => some v.toNat
  | .u8 v => some v.toNat
  | .u16 v => some v.toNat
  | .u32 v => some v.toNat
  | .half8 v => some v.toNat
  | .shalf v => some v.toNat
  | .idx v => some v.toNat
  | .protocol v => some v.code
  | .bytes _ => none

end Sys2Proof.Machine
end

