-- ==== Sys2Proof/Machine/Step.lean ====
section
/-! DEFINITION. One step of the machine, and the placing of an opcode-table word as its next instruction. -/

namespace Sys2Proof.Machine

/-- One step of the model: one `rx(b)`, `hb_take()` or `reset()` (00 R14), both of the first two where they are asked for in one
cycle (notes/assumptions/5.md), or nothing while nothing is asked. -/
def step (s : State) : Host.Outcome State Fault Refusal := serveNext s

/-- `s` with the frame of an opcode-table word received up to its last byte, that byte being the next request. It stands for
the transport's delivery of the frame (notes/assumptions/3.md). Every row of the table has 16 bits. -/
def State.withFetchWord (s : State) (_nbits w : Nat) : State := placeFrame (tableFrame w) s

end Sys2Proof.Machine
end

