-- ==== Sys2Proof/Safety.lean ====
section
/-! DEFINITION. What a good state is (10_state R21 to R27, R33, R41; 41_frame_decoder R144), how a run is written, and the parts of
a state that claims compare. -/

namespace Sys2Proof.Machine

/-- The write index the table of 10 R21 gives for the decoder state. -/
def State.tableWidx (s : State) : Nat :=
  match s.st with
  | .idle => 0
  | .sawHeader1 => 1
  | .readControl => 2
  | .readCommand => 3
  | .readLenHi => 4
  | .readLenLo => 5
  | .readPayload => 6 + s.lenStage - s.cnt
  | .readChecksum => 6 + s.lenStage
  | .sawTail1 => 7 + s.lenStage
  | .sawTail2 => 8 + s.lenStage

/-- The staged length (41 R144 (b)): 0 before the length is read, the high byte times 256 after it (high byte at most 4), then
`data_len`, at most 32. -/
def State.lenStageOk (s : State) : Prop :=
  match s.st with
  | .idle => s.lenStage = 0
  | .sawHeader1 => s.lenStage = 0
  | .readControl => s.lenStage = 0
  | .readCommand => s.lenStage = 0
  | .readLenHi => s.lenStage = 0
  | .readLenLo => s.lenStage = (s.buf.read 4).toNat * 256 ∧ (s.buf.read 4).toNat ≤ Config.lenHiMax
  | .readPayload => s.lenStage ≤ Config.maxPayload
  | .readChecksum => s.lenStage ≤ Config.maxPayload
  | .sawTail1 => s.lenStage ≤ Config.maxPayload
  | .sawTail2 => s.lenStage ≤ Config.maxPayload

/-- The countdown (41 R144 (c)): 1 to `data_len` in `ReadPayload`, 0 in every other state. -/
def State.cntOk (s : State) : Prop :=
  (s.st = .readPayload → 1 ≤ s.cnt ∧ s.cnt ≤ s.lenStage) ∧ (s.st ≠ .readPayload → s.cnt = 0)

/-- The fixed bytes of the frame in progress (10 R24, 41 R144 (d)). -/
def State.headerOk (s : State) : Prop :=
  (1 ≤ s.widx → s.buf.read 0 = Config.hdr0) ∧ (2 ≤ s.widx → s.buf.read 1 = Config.hdr1) ∧
  (6 ≤ s.widx → s.buf.read 4 = 0x00#8 ∧ (s.buf.read 5).toNat = s.lenStage) ∧
  (s.st = .sawTail2 → s.buf.read (7 + s.lenStage) = Config.tail0)

/-- The motion-speed slot is in its range, -10 to 245 (10 R41). -/
def Cache.speedOk (c : Cache) : Prop := ∀ v, c.motionSpeed = some v → -10 ≤ v.toInt ∧ v.toInt ≤ 245

/-- The invariant of the block: what holds in every reachable state between steps (41 R144; 10 R23, R33, R41), for any legal
parameters. -/
structure BlockInv (s : State) : Prop where
  /-- the capacity is a legal value of `BUF_CAP` -/
  cap : Config.maxFrame ≤ s.params.bufCap
  /-- the buffer is in its canonical form -/
  mem : s.buf.wf = true
  /-- nothing stands outside the address space `0 .. BUF_CAP-1` -/
  outside : ∀ a, s.params.bufCap ≤ a → s.buf.read a = unlistedByte
  /-- `widx` is the value the table of 10 R21 gives -/
  widx : s.widx = s.tableWidx
  lenStage : s.lenStageOk
  cnt : s.cntOk
  header : s.headerOk
  /-- `hb` holds one of its three legal values (10 R33) -/
  hb : s.hb = 0xFF#8 ∨ s.hb = 0x00#8 ∨ s.hb = 0x01#8
  speed : s.cache.speedOk
  speedInit : s.params.cacheInit.speedOk

/-- `k` steps, stopping where a step stops. -/
def runFor : Nat → State → Out
  | 0, s => .next s
  | k + 1, s => andThen (step s) (runFor k)

/-- The byte stream `bs`, then `rest`. -/
def deliver (bs : List Byte) (rest : List Request) : List Request := bs.map Request.rx ++ rest

/-- The two states agree on everything the Frame Decoder reads or writes, the capacity and the requests to come. -/
def sameDecoder (s t : State) : Prop :=
  s.st = t.st ∧ s.widx = t.widx ∧ s.buf = t.buf ∧ s.lenStage = t.lenStage ∧ s.cnt = t.cnt ∧
  s.params.bufCap = t.params.bufCap ∧ s.input = t.input

/-- The two states agree on the registers the Command Dispatcher writes. -/
def sameRegisters (s t : State) : Prop := s.dialect = t.dialect ∧ s.hb = t.hb ∧ s.cache = t.cache

/-- The two outcomes are next states related by `R`, or the same stop. -/
def outRel (R : State → State → Prop) : Out → Out → Prop
  | .next s, .next t => R s t
  | .fault r, .fault q => r = q
  | .refused r, .refused q => r = q
  | _, _ => False

/-- The dispatch ROM answers the command `f` for the pair `(c, k)`, whatever the payload. -/
def romRow (c k : Byte) (f : List Byte → Instr) : Prop := ∀ p, romLookup c k p = .row (f p)

/-- The next request delivers the byte `b`. -/
def nextByte (s : State) (b : Byte) : Prop :=
  ∃ rest, s.input = .rx b :: rest ∨ s.input = .rxAndTake b :: rest

/-- The next step completes a frame of one of the two output-switch commands (44 R200, R201). -/
def switchCompletes (s : State) : Prop :=
  s.st = .sawTail2 ∧ nextByte s Config.tail1 ∧ s.buf.read 2 = 0x08#8 ∧ (s.buf.read 3 = 0x00#8 ∨ s.buf.read 3 = 0x80#8)

/-- The buffer's payload bytes of the frame in progress (20 R63). -/
def payloadOf (s : State) : List Byte := (List.range s.lenStage).map (fun j => s.buf.read (6 + j))

/-- The state in which the second tail byte has just been stored. -/
def tailStored (s : State) : State :=
  { s with buf := s.buf.write s.widx Config.tail1, widx := s.widx + 1 }

/-- Whether an event is a `Pub`. -/
def Event.isPub : Event → Bool
  | .pub _ _ => true
  | .err _ => false
  | .log _ => false

/-- The six known control words (30 R100). -/
def knownControls : List Byte := [0x01#8, 0x02#8, 0x05#8, 0x07#8, 0x08#8, 0x80#8]

end Sys2Proof.Machine
end

