-- ==== Sys2Proof/Laws/State.lean ====
section
/-! SUPPORT. One lemma per field per update of the state (true by rfl), so that no later proof unfolds a record update. -/

namespace Sys2Proof.Machine

/-! ### `State.emit` -/

@[simp] theorem State.emit_st (e : Event) (s : State) : (s.emit e).st = s.st := rfl
@[simp] theorem State.emit_widx (e : Event) (s : State) : (s.emit e).widx = s.widx := rfl
@[simp] theorem State.emit_buf (e : Event) (s : State) : (s.emit e).buf = s.buf := rfl
@[simp] theorem State.emit_lenStage (e : Event) (s : State) : (s.emit e).lenStage = s.lenStage := rfl
@[simp] theorem State.emit_cnt (e : Event) (s : State) : (s.emit e).cnt = s.cnt := rfl
@[simp] theorem State.emit_dialect (e : Event) (s : State) : (s.emit e).dialect = s.dialect := rfl
@[simp] theorem State.emit_hb (e : Event) (s : State) : (s.emit e).hb = s.hb := rfl
@[simp] theorem State.emit_cache (e : Event) (s : State) : (s.emit e).cache = s.cache := rfl
@[simp] theorem State.emit_input (e : Event) (s : State) : (s.emit e).input = s.input := rfl
@[simp] theorem State.emit_out (e : Event) (s : State) : (s.emit e).out = s.out ++ [e] := rfl
@[simp] theorem State.emit_params (e : Event) (s : State) : (s.emit e).params = s.params := rfl
@[simp] theorem State.emit_choices (e : Event) (s : State) : (s.emit e).choices = s.choices := rfl

/-! ### `State.fdClear` -/

@[simp] theorem State.fdClear_st (s : State) : (s.fdClear).st = .idle := rfl
@[simp] theorem State.fdClear_widx (s : State) : (s.fdClear).widx = 0 := rfl
@[simp] theorem State.fdClear_buf (s : State) : (s.fdClear).buf = s.buf := rfl
@[simp] theorem State.fdClear_lenStage (s : State) : (s.fdClear).lenStage = 0 := rfl
@[simp] theorem State.fdClear_cnt (s : State) : (s.fdClear).cnt = 0 := rfl
@[simp] theorem State.fdClear_dialect (s : State) : (s.fdClear).dialect = s.dialect := rfl
@[simp] theorem State.fdClear_hb (s : State) : (s.fdClear).hb = s.hb := rfl
@[simp] theorem State.fdClear_cache (s : State) : (s.fdClear).cache = s.cache := rfl
@[simp] theorem State.fdClear_input (s : State) : (s.fdClear).input = s.input := rfl
@[simp] theorem State.fdClear_out (s : State) : (s.fdClear).out = s.out := rfl
@[simp] theorem State.fdClear_params (s : State) : (s.fdClear).params = s.params := rfl
@[simp] theorem State.fdClear_choices (s : State) : (s.fdClear).choices = s.choices := rfl

/-! ### `State.cachePut` -/

@[simp] theorem State.cachePut_st (m : Slot) (v : BitVec m.width) (s : State) : (s.cachePut m v).st = s.st := rfl
@[simp] theorem State.cachePut_widx (m : Slot) (v : BitVec m.width) (s : State) : (s.cachePut m v).widx = s.widx := rfl
@[simp] theorem State.cachePut_buf (m : Slot) (v : BitVec m.width) (s : State) : (s.cachePut m v).buf = s.buf := rfl
@[simp] theorem State.cachePut_lenStage (m : Slot) (v : BitVec m.width) (s : State) : (s.cachePut m v).lenStage = s.lenStage := rfl
@[simp] theorem State.cachePut_cnt (m : Slot) (v : BitVec m.width) (s : State) : (s.cachePut m v).cnt = s.cnt := rfl
@[simp] theorem State.cachePut_dialect (m : Slot) (v : BitVec m.width) (s : State) : (s.cachePut m v).dialect = s.dialect := rfl
@[simp] theorem State.cachePut_hb (m : Slot) (v : BitVec m.width) (s : State) : (s.cachePut m v).hb = s.hb := rfl
@[simp] theorem State.cachePut_cache (m : Slot) (v : BitVec m.width) (s : State) : (s.cachePut m v).cache = s.cache.put m v := rfl
@[simp] theorem State.cachePut_input (m : Slot) (v : BitVec m.width) (s : State) : (s.cachePut m v).input = s.input := rfl
@[simp] theorem State.cachePut_out (m : Slot) (v : BitVec m.width) (s : State) : (s.cachePut m v).out = s.out := rfl
@[simp] theorem State.cachePut_params (m : Slot) (v : BitVec m.width) (s : State) : (s.cachePut m v).params = s.params := rfl
@[simp] theorem State.cachePut_choices (m : Slot) (v : BitVec m.width) (s : State) : (s.cachePut m v).choices = s.choices := rfl

/-! ### `publish` -/

@[simp] theorem publish_st (m : Metric) (v : Value) (s : State) : (publish m v s).st = s.st := rfl
@[simp] theorem publish_widx (m : Metric) (v : Value) (s : State) : (publish m v s).widx = s.widx := rfl
@[simp] theorem publish_buf (m : Metric) (v : Value) (s : State) : (publish m v s).buf = s.buf := rfl
@[simp] theorem publish_lenStage (m : Metric) (v : Value) (s : State) : (publish m v s).lenStage = s.lenStage := rfl
@[simp] theorem publish_cnt (m : Metric) (v : Value) (s : State) : (publish m v s).cnt = s.cnt := rfl
@[simp] theorem publish_dialect (m : Metric) (v : Value) (s : State) : (publish m v s).dialect = s.dialect := rfl
@[simp] theorem publish_hb (m : Metric) (v : Value) (s : State) : (publish m v s).hb = s.hb := rfl
@[simp] theorem publish_cache (m : Metric) (v : Value) (s : State) : (publish m v s).cache = s.cache := rfl
@[simp] theorem publish_input (m : Metric) (v : Value) (s : State) : (publish m v s).input = s.input := rfl
@[simp] theorem publish_out (m : Metric) (v : Value) (s : State) : (publish m v s).out = s.out ++ [.pub m v] := rfl
@[simp] theorem publish_params (m : Metric) (v : Value) (s : State) : (publish m v s).params = s.params := rfl
@[simp] theorem publish_choices (m : Metric) (v : Value) (s : State) : (publish m v s).choices = s.choices := rfl

/-! ### `logNote` -/

@[simp] theorem logNote_st (c : LogCode) (s : State) : (logNote c s).st = s.st := rfl
@[simp] theorem logNote_widx (c : LogCode) (s : State) : (logNote c s).widx = s.widx := rfl
@[simp] theorem logNote_buf (c : LogCode) (s : State) : (logNote c s).buf = s.buf := rfl
@[simp] theorem logNote_lenStage (c : LogCode) (s : State) : (logNote c s).lenStage = s.lenStage := rfl
@[simp] theorem logNote_cnt (c : LogCode) (s : State) : (logNote c s).cnt = s.cnt := rfl
@[simp] theorem logNote_dialect (c : LogCode) (s : State) : (logNote c s).dialect = s.dialect := rfl
@[simp] theorem logNote_hb (c : LogCode) (s : State) : (logNote c s).hb = s.hb := rfl
@[simp] theorem logNote_cache (c : LogCode) (s : State) : (logNote c s).cache = s.cache := rfl
@[simp] theorem logNote_input (c : LogCode) (s : State) : (logNote c s).input = s.input := rfl
@[simp] theorem logNote_out (c : LogCode) (s : State) : (logNote c s).out = s.out ++ [.log c] := rfl
@[simp] theorem logNote_params (c : LogCode) (s : State) : (logNote c s).params = s.params := rfl
@[simp] theorem logNote_choices (c : LogCode) (s : State) : (logNote c s).choices = s.choices := rfl

/-! ### `resetBlock` -/

@[simp] theorem resetBlock_st (s : State) : (resetBlock s).st = .idle := rfl
@[simp] theorem resetBlock_widx (s : State) : (resetBlock s).widx = 0 := rfl
@[simp] theorem resetBlock_buf (s : State) : (resetBlock s).buf = [] := rfl
@[simp] theorem resetBlock_lenStage (s : State) : (resetBlock s).lenStage = 0 := rfl
@[simp] theorem resetBlock_cnt (s : State) : (resetBlock s).cnt = 0 := rfl
@[simp] theorem resetBlock_dialect (s : State) : (resetBlock s).dialect = .unknown := rfl
@[simp] theorem resetBlock_hb (s : State) : (resetBlock s).hb = 0xFF#8 := rfl
@[simp] theorem resetBlock_cache (s : State) : (resetBlock s).cache = s.params.cacheInit := rfl
@[simp] theorem resetBlock_input (s : State) : (resetBlock s).input = s.input := rfl
@[simp] theorem resetBlock_out (s : State) : (resetBlock s).out = s.out := rfl
@[simp] theorem resetBlock_params (s : State) : (resetBlock s).params = s.params := rfl
@[simp] theorem resetBlock_choices (s : State) : (resetBlock s).choices = s.choices := rfl

/-! ### The cache slots -/

@[simp] theorem Cache.get_put_same (c : Cache) (m : Slot) (v : BitVec m.width) : (c.put m v).get m = some v := by
  cases m <;> rfl

theorem Cache.get_put_other (c : Cache) (m k : Slot) (v : BitVec m.width) (h : k ≠ m) :
    (c.put m v).get k = c.get k := by
  cases m <;> cases k <;> first | rfl | exact absurd rfl h

/-- Writing what a slot already holds changes nothing. -/
theorem Cache.put_of_get (c : Cache) (m : Slot) (v : BitVec m.width) (h : c.get m = some v) : c.put m v = c := by
  cases m <;> simp only [Cache.get] at h <;> simp only [Cache.put, ← h]

end Sys2Proof.Machine
end

