-- ==== Sys2Proof/Laws/Memory.lean ====
section
/-! SUPPORT. The frame buffer: a read after a write, the canonical form, the store form and the snapshot. -/

namespace Sys2Proof.Machine

/-- Every entry of a canonical memory's tail lies above its head. -/
theorem Memory.wf_cons {a : Nat} {v : Byte} {m : Memory} :
    Memory.wf ((a, v) :: m) = true ↔ v ≠ unlistedByte ∧ (∀ c ∈ m, a < c.1) ∧ Memory.wf m = true := by
  simp [Memory.wf, and_assoc]

/-- An address below every listed one reads as unlisted. -/
theorem Memory.read_below {m : Memory} {a : Nat} (h : ∀ c ∈ m, a < c.1) : m.read a = unlistedByte := by
  induction m with
  | nil => rfl
  | cons c m ih =>
    have hc := h c (by simp)
    have : a ≠ c.1 := by omega
    simpa [Memory.read, this] using ih (fun d hd => h d (by simp [hd]))

/-- Every entry after a write is at the written address or was listed before. -/
theorem Memory.mem_write {m : Memory} {a : Nat} {v : Byte} {c : Host.Cell} (h : c ∈ m.write a v) :
    c.1 = a ∨ c ∈ m := by
  induction m with
  | nil =>
    simp only [Memory.write] at h
    split at h <;> simp_all
  | cons d m ih =>
    simp only [Memory.write] at h
    split at h
    · split at h
      · exact .inr h
      · rcases List.mem_cons.mp h with h | h
        · exact .inl (by rw [h])
        · exact .inr h
    · split at h
      · split at h
        · exact .inr (List.mem_cons_of_mem _ h)
        · rcases List.mem_cons.mp h with h | h
          · exact .inl (by rw [h])
          · exact .inr (List.mem_cons_of_mem _ h)
      · rcases List.mem_cons.mp h with h | h
        · exact .inr (by simp [h])
        · rcases ih h with h | h
          · exact .inl h
          · exact .inr (List.mem_cons_of_mem _ h)

/-- A write keeps the canonical form. -/
theorem Memory.write_wf {m : Memory} (h : m.wf = true) (a : Nat) (v : Byte) : (m.write a v).wf = true := by
  induction m with
  | nil =>
    by_cases hv : v = unlistedByte <;> simp [Memory.write, Memory.wf, hv]
  | cons d m ih =>
    obtain ⟨b, w⟩ := d
    obtain ⟨hw, hab, hm⟩ := Memory.wf_cons.mp h
    simp only [Memory.write]
    split
    · split
      · exact h
      · next hlt hv =>
        refine Memory.wf_cons.mpr ⟨hv, fun c hc => ?_, h⟩
        rcases List.mem_cons.mp hc with rfl | hc
        · exact hlt
        · exact Nat.lt_trans hlt (hab c hc)
    · split
      · split
        · exact hm
        · next _ heq hv => exact Memory.wf_cons.mpr ⟨hv, fun c hc => heq ▸ hab c hc, hm⟩
      · refine Memory.wf_cons.mpr ⟨hw, fun c hc => ?_, ih hm⟩
        rcases Memory.mem_write hc with h' | h'
        · omega
        · exact hab c h'

/-- A read after a write to the same address gives the byte written. -/
theorem Memory.read_write_same {m : Memory} (h : m.wf = true) (a : Nat) (v : Byte) : (m.write a v).read a = v := by
  induction m with
  | nil => by_cases hv : v = unlistedByte <;> simp [Memory.write, Memory.read, hv]
  | cons d m ih =>
    obtain ⟨b, w⟩ := d
    obtain ⟨_, hab, hm⟩ := Memory.wf_cons.mp h
    simp only [Memory.write]
    split
    · next hlt =>
      split
      · next hv =>
        rw [hv]
        refine Memory.read_below fun c hc => ?_
        rcases List.mem_cons.mp hc with rfl | hc
        · exact hlt
        · exact Nat.lt_trans hlt (hab c hc)
      · simp [Memory.read]
    · split
      · next heq =>
        split
        · next hv => rw [hv]; exact Memory.read_below fun c hc => heq ▸ hab c hc
        · simp [Memory.read]
      · next hne => simpa [Memory.read, hne] using ih hm

/-- A write leaves every other address alone. -/
theorem Memory.read_write_other (m : Memory) {a a' : Nat} (v : Byte) (h : a' ≠ a) :
    (m.write a v).read a' = m.read a' := by
  induction m with
  | nil => by_cases hv : v = unlistedByte <;> simp [Memory.write, Memory.read, hv, h]
  | cons d m ih =>
    obtain ⟨b, w⟩ := d
    simp only [Memory.write]
    split
    · split
      · rfl
      · simp [Memory.read, h]
    · split
      · next heq => subst heq; split <;> simp [Memory.read, h]
      · by_cases hb : a' = b <;> simp [Memory.read, hb]
        simpa [hb] using ih

/-- Canonical memories that read alike are the same list. -/
theorem Memory.ext_read {m k : Memory} (hm : m.wf = true) (hk : k.wf = true) (h : ∀ a, m.read a = k.read a) : m = k := by
  induction m generalizing k with
  | nil =>
    cases k with
    | nil => rfl
    | cons d k =>
      obtain ⟨b, w⟩ := d
      have := h b
      simp [Memory.read] at this
      exact absurd this.symm (Memory.wf_cons.mp hk).1
  | cons c m ih =>
    obtain ⟨a, v⟩ := c
    obtain ⟨hv, hma, hm'⟩ := Memory.wf_cons.mp hm
    cases k with
    | nil =>
      have := h a
      simp [Memory.read] at this
      exact absurd this hv
    | cons d k =>
      obtain ⟨b, w⟩ := d
      obtain ⟨hw, hkb, hk'⟩ := Memory.wf_cons.mp hk
      have hab : a = b := by
        rcases Nat.lt_trichotomy a b with hlt | heq | hgt
        · have := h a
          rw [Memory.read_below (m := (b, w) :: k) (a := a)
            (fun c hc => by rcases List.mem_cons.mp hc with rfl | hc; exacts [hlt, Nat.lt_trans hlt (hkb c hc)])] at this
          simp [Memory.read] at this
          exact absurd this hv
        · exact heq
        · have := h b
          rw [Memory.read_below (m := (a, v) :: m) (a := b)
            (fun c hc => by rcases List.mem_cons.mp hc with rfl | hc; exacts [hgt, Nat.lt_trans hgt (hma c hc)])] at this
          simp [Memory.read] at this
          exact absurd this.symm hw
      subst hab
      have hvw : v = w := by simpa [Memory.read] using h a
      subst hvw
      congr 1
      refine ih hm' hk' fun x => ?_
      by_cases hx : x = a
      · subst hx
        rw [Memory.read_below hma, Memory.read_below hkb]
      · simpa [Memory.read, hx] using h x

/-- Everything the store form can do: it answers a next state exactly inside the buffer. -/
theorem store_cases {a : Nat} {b : Byte} {s t : State} (h : store a b s = .next t) :
    a < s.params.bufCap ∧ t = { s with buf := s.buf.write a b, widx := a + 1 } := by
  unfold store at h
  split at h
  · next hlt => exact ⟨hlt, by cases h; rfl⟩
  · cases h

@[simp] theorem snapshot_length (s : State) : (snapshot s).length = s.widx := by simp [snapshot]

/-- Byte `i` of the snapshot is byte `i` of the buffer. -/
theorem snapshot_get (s : State) {i : Nat} (h : i < s.widx) : byteAt (snapshot s) i = s.buf.read i := by
  simp [byteAt, snapshot, h]

end Sys2Proof.Machine
end

