-- ==== Sys2Proof/Laws/Ops.lean ====
section
/-! SUPPORT. For each shared operation, once, everything it can do; and the frame of the dispatcher's operations: they leave the
Frame Decoder's registers, the buffer and the interface alone and only append events. -/

namespace Sys2Proof.Machine

/-- `t` differs from `s` at most in the dispatcher's registers and by events appended. -/
def OnlyDispatcher (s t : State) : Prop :=
  t.st = s.st ∧ t.widx = s.widx ∧ t.buf = s.buf ∧ t.lenStage = s.lenStage ∧ t.cnt = s.cnt ∧
  t.input = s.input ∧ t.params = s.params ∧ t.choices = s.choices ∧ ∃ es, t.out = s.out ++ es

theorem OnlyDispatcher.refl (s : State) : OnlyDispatcher s s :=
  ⟨rfl, rfl, rfl, rfl, rfl, rfl, rfl, rfl, [], by simp⟩

theorem OnlyDispatcher.trans {s t u : State} (h : OnlyDispatcher s t) (k : OnlyDispatcher t u) : OnlyDispatcher s u := by
  obtain ⟨h1, h2, h3, h4, h5, h6, h7, h8, es, h9⟩ := h
  obtain ⟨k1, k2, k3, k4, k5, k6, k7, k8, fs, k9⟩ := k
  exact ⟨k1.trans h1, k2.trans h2, k3.trans h3, k4.trans h4, k5.trans h5, k6.trans h6, k7.trans h7, k8.trans h8,
    es ++ fs, by rw [k9, h9, List.append_assoc]⟩

theorem emit_onlyDispatcher (e : Event) (s : State) : OnlyDispatcher s (s.emit e) :=
  ⟨rfl, rfl, rfl, rfl, rfl, rfl, rfl, rfl, [e], rfl⟩

theorem cachePut_onlyDispatcher (m : Slot) (v : BitVec m.width) (s : State) : OnlyDispatcher s (s.cachePut m v) :=
  ⟨rfl, rfl, rfl, rfl, rfl, rfl, rfl, rfl, [], by simp⟩

/-! ### `andThen` -/

@[simp] theorem andThen_next (s : State) (f : State → Out) : andThen (.next s) f = f s := rfl
@[simp] theorem andThen_fault (r : Fault) (f : State → Out) : andThen (.fault r) f = .fault r := rfl
@[simp] theorem andThen_refused (r : Refusal) (f : State → Out) : andThen (.refused r) f = .refused r := rfl

/-- A sequence answers a next state only through one of its first part. -/
theorem andThen_eq_next {o : Out} {f : State → Out} {t : State} (h : andThen o f = .next t) :
    ∃ s, o = .next s ∧ f s = .next t := by
  cases o with
  | next s => exact ⟨s, rfl, h⟩
  | fault r => cases h
  | refused r => cases h

/-! ### `raise` -/

/-- An error of the Frame Decoder: the event, and the return to `Idle` (60 R300 (a)). -/
theorem raise_decoder {e : Err} (h : e.ofDecoder = true) (s : State) : raise e s = (s.emit (.err e)).fdClear := by
  simp [raise, h]

/-- An error of the Command Dispatcher: the event and nothing else (60 R300 (b), (c)). -/
theorem raise_dispatcher {e : Err} (h : e.ofDecoder = false) (s : State) : raise e s = s.emit (.err e) := by
  simp [raise, h]

@[simp] theorem raise_unkCtrl (c k : Byte) (s : State) : raise (.unkCtrl c k) s = s.emit (.err (.unkCtrl c k)) := rfl
@[simp] theorem raise_unkCmd (c k : Byte) (s : State) : raise (.unkCmd c k) s = s.emit (.err (.unkCmd c k)) := rfl
@[simp] theorem raise_range (c k v : Byte) (s : State) : raise (.range c k v) s = s.emit (.err (.range c k v)) := rfl
@[simp] theorem raise_overstr (c k : Byte) (n : Nat) (s : State) :
    raise (.overstr c k n) s = s.emit (.err (.overstr c k n)) := rfl
@[simp] theorem raise_short (c k : Byte) (j n : Nat) (s : State) :
    raise (.short c k j n) s = s.emit (.err (.short c k j n)) := rfl

@[simp] theorem fdClear_fdClear (s : State) : s.fdClear.fdClear = s.fdClear := rfl

@[simp] theorem raise_out (e : Err) (s : State) : (raise e s).out = s.out ++ [.err e] := by
  simp only [raise]; split <;> rfl

/-! ### The operand helpers -/

/-- `have(k)`: either the field is inside the payload, or the short payload is reported and nothing else happens. -/
theorem haveBytes_cases (cc ss : Byte) (p : List Byte) (k : Nat) (f : State → State) (s : State) :
    (k ≤ p.length ∧ haveBytes cc ss p k f s = f s) ∨
    (p.length < k ∧ haveBytes cc ss p k f s = s.emit (.err (.short cc ss k p.length))) := by
  unfold haveBytes
  split
  · next h => exact .inl ⟨h, rfl⟩
  · next h => exact .inr ⟨by omega, rfl⟩

theorem haveBytes_enough {cc ss : Byte} {p : List Byte} {k : Nat} (h : k ≤ p.length) (f : State → State) (s : State) :
    haveBytes cc ss p k f s = f s := by simp [haveBytes, h]

theorem haveBytes_short {cc ss : Byte} {p : List Byte} {k : Nat} (h : p.length < k) (f : State → State) (s : State) :
    haveBytes cc ss p k f s = s.emit (.err (.short cc ss k p.length)) := by
  simp [haveBytes, Nat.not_le.mpr h]

/-- `check`: either the index is in range and published, or the range error is reported and nothing else happens. -/
theorem checkRange_cases (cc ss : Byte) (m : Metric) (v : Byte) (lo hi : Nat) (s : State) :
    ((lo ≤ v.toNat ∧ v.toNat ≤ hi) ∧ checkRange cc ss m v lo hi s = s.emit (.pub m (.idx v))) ∨
    (¬ (lo ≤ v.toNat ∧ v.toNat ≤ hi) ∧ checkRange cc ss m v lo hi s = s.emit (.err (.range cc ss v))) := by
  unfold checkRange
  split
  · next h => exact .inl ⟨h, rfl⟩
  · next h => exact .inr ⟨h, rfl⟩

/-- `publish_if_changed`: the slot holds the value afterwards in every case; it is published unless the slot held it. -/
theorem publishIfChanged_cases (m : Slot) (v : BitVec m.width) (s : State) :
    (s.cache.get m = some v ∧ publishIfChanged m v s = s) ∨
    (s.cache.get m ≠ some v ∧ publishIfChanged m v s = (s.cachePut m v).emit (.pub m.metric (m.value v))) := by
  unfold publishIfChanged
  split
  · next h => exact .inl ⟨h, by rw [State.cachePut, Cache.put_of_get _ _ _ h]⟩
  · next h => exact .inr ⟨h, rfl⟩

/-- `publish_if_changed` in one equation. -/
theorem publishIfChanged_eq (m : Slot) (v : BitVec m.width) (s : State) : publishIfChanged m v s =
    { s with
      cache := s.cache.put m v
      out := s.out ++ (if s.cache.get m = some v then [] else [.pub m.metric (m.value v)]) } := by
  unfold publishIfChanged
  split <;> simp [publish, State.cachePut, State.emit]

/-! `publish_if_changed` slot by slot, on the named fields. -/

theorem publishIfChanged_moveAmpl (v : BitVec 8) (s : State) : publishIfChanged .moveAmpl v s =
    { s with
      cache := { s.cache with moveAmpl := some v }
      out := s.out ++ (if s.cache.moveAmpl = some v then [] else [.pub .moveAmpl (.u8 v)]) } :=
  publishIfChanged_eq .moveAmpl v s

theorem publishIfChanged_spatialStatic (v : BitVec 8) (s : State) : publishIfChanged .spatialStatic v s =
    { s with
      cache := { s.cache with spatialStatic := some v }
      out := s.out ++ (if s.cache.spatialStatic = some v then [] else [.pub .spatialStatic (.u8 v)]) } :=
  publishIfChanged_eq .spatialStatic v s

theorem publishIfChanged_spatialMotion (v : BitVec 8) (s : State) : publishIfChanged .spatialMotion v s =
    { s with
      cache := { s.cache with spatialMotion := some v }
      out := s.out ++ (if s.cache.spatialMotion = some v then [] else [.pub .spatialMotion (.u8 v)]) } :=
  publishIfChanged_eq .spatialMotion v s

theorem publishIfChanged_motionDist (v : BitVec 8) (s : State) : publishIfChanged .motionDist v s =
    { s with
      cache := { s.cache with motionDist := some v }
      out := s.out ++ (if s.cache.motionDist = some v then [] else [.pub .motionDist (.half8 v)]) } :=
  publishIfChanged_eq .motionDist v s

theorem publishIfChanged_motionSpeed (v : BitVec 9) (s : State) : publishIfChanged .motionSpeed v s =
    { s with
      cache := { s.cache with motionSpeed := some v }
      out := s.out ++ (if s.cache.motionSpeed = some v then [] else [.pub .motionSpeed (.shalf v)]) } :=
  publishIfChanged_eq .motionSpeed v s

theorem publishIfChanged_triggerTime (v : BitVec 32) (s : State) : publishIfChanged .triggerTime v s =
    { s with
      cache := { s.cache with triggerTime := some v }
      out := s.out ++ (if s.cache.triggerTime = some v then [] else [.pub .triggerTime (.u32 v)]) } :=
  publishIfChanged_eq .triggerTime v s

theorem publishIfChanged_restTime (v : BitVec 32) (s : State) : publishIfChanged .restTime v s =
    { s with
      cache := { s.cache with restTime := some v }
      out := s.out ++ (if s.cache.restTime = some v then [] else [.pub .restTime (.u32 v)]) } :=
  publishIfChanged_eq .restTime v s

theorem publishIfChanged_unmannedTime (v : BitVec 32) (s : State) : publishIfChanged .unmannedTime v s =
    { s with
      cache := { s.cache with unmannedTime := some v }
      out := s.out ++ (if s.cache.unmannedTime = some v then [] else [.pub .unmannedTime (.u32 v)]) } :=
  publishIfChanged_eq .unmannedTime v s

@[simp] theorem publishIfChanged_get (m : Slot) (v : BitVec m.width) (s : State) :
    (publishIfChanged m v s).cache.get m = some v := by
  rcases publishIfChanged_cases m v s with ⟨h, e⟩ | ⟨_, e⟩ <;> rw [e]
  · exact h
  · simp

theorem publishIfChanged_onlyDispatcher (m : Slot) (v : BitVec m.width) (s : State) :
    OnlyDispatcher s (publishIfChanged m v s) := by
  rcases publishIfChanged_cases m v s with ⟨_, e⟩ | ⟨_, e⟩ <;> rw [e]
  · exact .refl s
  · exact (cachePut_onlyDispatcher m v s).trans (emit_onlyDispatcher _ _)

theorem haveBytes_onlyDispatcher (cc ss : Byte) (p : List Byte) (k : Nat) (f : State → State) (s : State)
    (hf : OnlyDispatcher s (f s)) : OnlyDispatcher s (haveBytes cc ss p k f s) := by
  rcases haveBytes_cases cc ss p k f s with ⟨_, e⟩ | ⟨_, e⟩ <;> rw [e]
  · exact hf
  · exact emit_onlyDispatcher _ s

theorem checkRange_onlyDispatcher (cc ss : Byte) (m : Metric) (v : Byte) (lo hi : Nat) (s : State) :
    OnlyDispatcher s (checkRange cc ss m v lo hi s) := by
  rcases checkRange_cases cc ss m v lo hi s with ⟨_, e⟩ | ⟨_, e⟩ <;> rw [e] <;> exact emit_onlyDispatcher _ s

/-- The string form: published up to the cap, reported above it. -/
theorem stringField_cases (cc ss : Byte) (m : Metric) (p : List Byte) (s : State) :
    (p.length ≤ Config.strCap ∧ stringField cc ss m p s = s.emit (.pub m (.bytes p))) ∨
    (Config.strCap < p.length ∧ stringField cc ss m p s = s.emit (.err (.overstr cc ss p.length))) := by
  unfold stringField
  split
  · next h => exact .inr ⟨h, rfl⟩
  · next h => exact .inl ⟨by omega, rfl⟩

/-- The motion speed as an integer is the raw byte minus 10, without wrap (30 R96, 40 R122 (f)). -/
theorem speedOf_toInt (b : Byte) : (speedOf b).toInt = (b.toNat : Int) - 10 := by
  have := b.isLt
  simp only [speedOf, BitVec.toInt_ofInt]
  rw [Int.bmod_eq_of_le] <;> omega

/-! ### The host's steps -/

theorem hbTake_uninitialized {s : State} (h : s.hb = 0xFF#8) : hbTake s = s := by simp [hbTake, h]

theorem hbTake_pending {s : State} (h : s.hb ≠ 0xFF#8) :
    hbTake s = { s with hb := 0xFF#8, out := s.out ++ [.pub .heartbeat (.u8 s.hb)] } := by
  simp [hbTake, h, publish, State.emit]

theorem step_idle {s : State} (h : s.input = []) : step s = .next { s with out := [] } := by
  simp [step, serveNext, h]

theorem step_cons {s : State} {r : Request} {rest : List Request} (h : s.input = r :: rest) :
    step s = serve r { s with input := rest, out := [] } := by
  simp [step, serveNext, h]

/-- `runFor` is the interface's run. -/
theorem runFor_eq_run (k : Nat) (s : State) : runFor k s = Host.Core.run Sys2Proof.core k s := by
  induction k generalizing s with
  | zero => rfl
  | succ k ih =>
    show andThen (step s) (runFor k) = _
    have hstep : Sys2Proof.core.step s = step s := rfl
    simp only [Host.Core.run, hstep]
    cases step s with
    | next t => exact ih t
    | fault r => rfl
    | refused r => rfl

end Sys2Proof.Machine
end

