-- ==== Sys2Proof/Laws/Frame.lean ====
section
/-! SUPPORT. The shape of a frame and the Checksum Unit on it. -/

namespace Sys2Proof

open Machine

@[simp] theorem frameBody_length (cc ss : Byte) (p : List Byte) : (frameBody cc ss p).length = p.length + 6 := by
  simp [frameBody]

@[simp] theorem frame_length (cc ss : Byte) (p : List Byte) : (frame cc ss p).length = p.length + 9 := by
  simp [frame]

theorem byteSum_append (xs ys : List Byte) : byteSum (xs ++ ys) = byteSum xs + byteSum ys := by
  simp [byteSum]

/-- The checksum of a body followed by any three bytes is the sum of the body. -/
theorem checksum_append_three (body : List Byte) (k t0 t1 : Byte) : checksum (body ++ [k, t0, t1]) = sum8 body := by
  simp [checksum]

/-- The checksum byte of a body followed by any three bytes is the first of them. -/
theorem checksumByte_append_three (body : List Byte) (k t0 t1 : Byte) : checksumByte (body ++ [k, t0, t1]) = k := by
  simp [checksumByte, byteAt]

theorem verify_append_three (body : List Byte) (k t0 t1 : Byte) :
    verify (body ++ [k, t0, t1]) = decide (sum8 body = k) := by
  simp [verify, checksum_append_three, checksumByte_append_three]

/-- Every frame verifies. -/
theorem verify_frame (cc ss : Byte) (p : List Byte) : verify (frame cc ss p) = true := by
  simp [frame, verify_append_three]

/-- Big-endian assembly of two bytes. -/
theorem bigEndian_two (a b : Byte) : bigEndian [a, b] = a.toNat * 256 + b.toNat := by simp [bigEndian]

/-- Big-endian assembly of four bytes. -/
theorem bigEndian_four (a b c d : Byte) :
    bigEndian [a, b, c, d] = ((a.toNat * 256 + b.toNat) * 256 + c.toNat) * 256 + d.toNat := by simp [bigEndian]

end Sys2Proof
end

