-- ==== Sys2Proof/Laws/PerInstr.lean ====
section
/-! SUPPORT. Per-instruction lemmas: the dispatch ROM answers each row for its own pair (30_encoding R100). -/

namespace Sys2Proof.Laws.RomRow

/-- The ROM look-up of the instruction's own pair and payload answers that instruction. -/
def Statement (i : Instr) : Prop := romLookup i.control i.command i.payload = .row i

theorem sysHb (p : List Byte) : Statement (.sysHb p) := rfl
theorem sysRst (p : List Byte) : Statement (.sysRst p) := rfl
theorem prdA1 (p : List Byte) : Statement (.prdA1 p) := rfl
theorem prdA2 (p : List Byte) : Statement (.prdA2 p) := rfl
theorem prdA3 (p : List Byte) : Statement (.prdA3 p) := rfl
theorem prdA4 (p : List Byte) : Statement (.prdA4 p) := rfl
theorem prdProto (p : List Byte) : Statement (.prdProto p) := rfl
theorem wsScene01 (p : List Byte) : Statement (.wsScene01 p) := rfl
theorem wsScene07 (p : List Byte) : Statement (.wsScene07 p) := rfl
theorem wsScene87 (p : List Byte) : Statement (.wsScene87 p) := rfl
theorem wsSens08 (p : List Byte) : Statement (.wsSens08 p) := rfl
theorem wsSens88 (p : List Byte) : Statement (.wsSens88 p) := rfl
theorem wsInit81 (p : List Byte) : Statement (.wsInit81 p) := rfl
theorem drMov01 (p : List Byte) : Statement (.drMov01 p) := rfl
theorem drMov81 (p : List Byte) : Statement (.drMov81 p) := rfl
theorem drSta04 (p : List Byte) : Statement (.drSta04 p) := rfl
theorem drSta84 (p : List Byte) : Statement (.drSta84 p) := rfl
theorem oiSw00 (p : List Byte) : Statement (.oiSw00 p) := rfl
theorem oiSw80 (p : List Byte) : Statement (.oiSw80 p) := rfl
theorem oiBurst01 (p : List Byte) : Statement (.oiBurst01 p) := rfl
theorem oiAppr06 (p : List Byte) : Statement (.oiAppr06 p) := rfl
theorem oiAmpl07 (p : List Byte) : Statement (.oiAmpl07 p) := rfl
theorem oiAmpl87 (p : List Byte) : Statement (.oiAmpl87 p) := rfl
theorem oiJth08 (p : List Byte) : Statement (.oiJth08 p) := rfl
theorem oiJth88 (p : List Byte) : Statement (.oiJth88 p) := rfl
theorem oiAth09 (p : List Byte) : Statement (.oiAth09 p) := rfl
theorem oiAth89 (p : List Byte) : Statement (.oiAth89 p) := rfl
theorem oiPbd0A (p : List Byte) : Statement (.oiPbd0A p) := rfl
theorem oiPbd8A (p : List Byte) : Statement (.oiPbd8A p) := rfl
theorem oiTbd0B (p : List Byte) : Statement (.oiTbd0B p) := rfl
theorem oiTbd8B (p : List Byte) : Statement (.oiTbd8B p) := rfl
theorem oiTtrig0C (p : List Byte) : Statement (.oiTtrig0C p) := rfl
theorem oiTtrig8C (p : List Byte) : Statement (.oiTtrig8C p) := rfl
theorem oiTrest0D (p : List Byte) : Statement (.oiTrest0D p) := rfl
theorem oiTrest8D (p : List Byte) : Statement (.oiTrest8D p) := rfl
theorem oiTunm0E (p : List Byte) : Statement (.oiTunm0E p) := rfl
theorem oiTunm8E (p : List Byte) : Statement (.oiTunm8E p) := rfl
theorem oiPdist83 (p : List Byte) : Statement (.oiPdist83 p) := rfl
theorem huPres01 (p : List Byte) : Statement (.huPres01 p) := rfl
theorem huPres81 (p : List Byte) : Statement (.huPres81 p) := rfl
theorem huMot02 (p : List Byte) : Statement (.huMot02 p) := rfl
theorem huMot82 (p : List Byte) : Statement (.huMot82 p) := rfl
theorem huAmpl03 (p : List Byte) : Statement (.huAmpl03 p) := rfl
theorem huAmpl83 (p : List Byte) : Statement (.huAmpl83 p) := rfl
theorem huUnm0A (p : List Byte) : Statement (.huUnm0A p) := rfl
theorem huUnm8A (p : List Byte) : Statement (.huUnm8A p) := rfl
theorem huAppr0B (p : List Byte) : Statement (.huAppr0B p) := rfl
theorem huAppr8B (p : List Byte) : Statement (.huAppr8B p) := rfl

end Sys2Proof.Laws.RomRow
end

