-- ==== Sys2Proof/Certificates/Slice0/Obligations.lean ====
section
/-! DEFINITION. The statements about the model for the provers. A statement whose docstring says "the spec's decision" or "the
model's choice" rests on more than the source's own words; notes/assumptions/ holds the model's choices. -/

open Sys2Proof Sys2Proof.Machine

/-! ### Encoding -/

/-- `FRAME(cc, ss, p)` as 30 R108 writes it, for every pair and every payload of at most 32 bytes: header, pair, the two length
bytes, payload, the sum of all of these modulo 256, tail; and `encode` is that frame of the instruction's pair and payload. -/
def Obligations.EncodeIsTheFrameFormula : Prop :=
  (∀ (cc ss : Byte) (p : List Byte), p.length ≤ 32 →
    ∃ b : List Byte, b = [0x53#8, 0x59#8, cc, ss, BitVec.ofNat 8 (p.length >>> 8), BitVec.ofNat 8 (p.length &&& 0xFF)] ++ p ∧
      frame cc ss p = b ++ [BitVec.ofNat 8 ((b.map BitVec.toNat).sum % 256), 0x54#8, 0x43#8]) ∧
  ∀ i : Instr, encode i = frame i.control i.command i.payload

/-- Decoding the encoding of any instruction a frame can carry gives it back: all 48 commands, every payload of 0 to 32 bytes. -/
def Obligations.DecodeOfEncodeIsIdentity : Prop :=
  ∀ i : Instr, i.wellFormed = true → decode (encode i) = .instr i

/-- Each instruction has one encoding: bytes that decode to an instruction are its encoding, and its payload fits. -/
def Obligations.DecodedBytesAreTheEncoding : Prop :=
  ∀ (bs : List Byte) (i : Instr), decode bs = .instr i → i.wellFormed = true ∧ bs = encode i

/-- Frames written out in the spec decode to the command and payload the spec says, one from each family. -/
def Obligations.SpecFramesDecode : Prop :=
  decode [0x53#8, 0x59#8, 0x01#8, 0x01#8, 0x00#8, 0x01#8, 0x0F#8, 0xBE#8, 0x54#8, 0x43#8] = .instr (.sysHb [0x0F#8]) ∧
  decode [0x53#8, 0x59#8, 0x02#8, 0xA2#8, 0x00#8, 0x02#8, 0x41#8, 0x42#8, 0xD5#8, 0x54#8, 0x43#8] =
    .instr (.prdA2 [0x41#8, 0x42#8]) ∧
  decode [0x53#8, 0x59#8, 0x05#8, 0x07#8, 0x00#8, 0x01#8, 0x05#8, 0xBE#8, 0x54#8, 0x43#8] = .instr (.wsScene07 [0x05#8]) ∧
  decode [0x53#8, 0x59#8, 0x07#8, 0x01#8, 0x00#8, 0x02#8, 0x01#8, 0x2C#8, 0xE3#8, 0x54#8, 0x43#8] =
    .instr (.drMov01 [0x01#8, 0x2C#8]) ∧
  decode [0x53#8, 0x59#8, 0x08#8, 0x80#8, 0x00#8, 0x01#8, 0x0F#8, 0x44#8, 0x54#8, 0x43#8] = .instr (.oiSw80 [0x0F#8]) ∧
  decode [0x53#8, 0x59#8, 0x80#8, 0x83#8, 0x00#8, 0x01#8, 0x50#8, 0x00#8, 0x54#8, 0x43#8] = .instr (.huAmpl83 [0x50#8]) ∧
  decode [0x53#8, 0x59#8, 0x08#8, 0x81#8, 0x00#8, 0x01#8, 0x00#8, 0x36#8, 0x54#8, 0x43#8] =
    .reject (.unknownCommand 0x08#8 0x81#8)

/-- The dispatch ROM maps exactly 48 pairs to a row, each matched on all 16 bits with the payload handed over unchanged, and every
other pair to unknown. It has two levels: the control word is looked at first (six families), then the command word. -/
def Obligations.RomMapsExactlyFortyEightPairs : Prop :=
  (∀ (c k : Byte) (p : List Byte) (i : Instr),
    romLookup c k p = .row i ↔ (i.control = c ∧ i.command = k ∧ i.payload = p)) ∧
  (∃ rows : List (Byte × Byte), rows.length = 48 ∧ rows.Nodup ∧
    ∀ (c k : Byte) (p : List Byte), (∃ i, romLookup c k p = .row i) ↔ (c, k) ∈ rows) ∧
  (∀ (c k : Byte) (p : List Byte), c ∉ knownControls → romLookup c k p = .unknownControl c k) ∧
  (∀ (c k : Byte) (p : List Byte), c ∈ knownControls → (∀ i : Instr, ¬ (i.control = c ∧ i.command = k)) →
    romLookup c k p = .unknownCommand c k)

/-! ### The dispatcher's whole-frame errors -/

/-- A valid frame whose control word is none of the six known ones is reported with `E_UNK_CTRL`, whatever its command word is,
and nothing else changes; 250 of the 256 control words are unknown. -/
def Obligations.UnknownControlWordIsReported : Prop :=
  (∀ (c k : Byte) (p : List Byte) (s : State), p.length ≤ 32 → c ∉ knownControls →
    dispatch (frame c k p) s = .next { s with out := s.out ++ [.err (.unkCtrl c k)] }) ∧
  ((List.range 256).filter (fun n => decide (BitVec.ofNat 8 n ∉ knownControls))).length = 250

/-- A valid frame with a known control word whose pair is no row of the ROM is reported with `E_UNK_CMD`, and nothing else
changes. -/
def Obligations.UnknownCommandWordIsReported : Prop :=
  ∀ (c k : Byte) (p : List Byte) (s : State), p.length ≤ 32 → c ∈ knownControls →
    (∀ i : Instr, ¬ (i.control = c ∧ i.command = k)) →
    dispatch (frame c k p) s = .next { s with out := s.out ++ [.err (.unkCmd c k)] }

/-! ### System and Product families -/

/-- `SYS_HB`, pair (0x01, 0x01): `hb` becomes 1, no event, for every payload; nothing else changes. -/
def Obligations.HeartbeatReplySetsHb : Prop :=
  romRow 0x01#8 0x01#8 .sysHb ∧
  ∀ (p : List Byte) (s : State), exec (.sysHb p) s = .next { s with hb := 0x01#8 }

/-- `SYS_RST`, pair (0x01, 0x02): one log event and no state change, for every payload (the log event is the spec's decision
D28). -/
def Obligations.ResetReplyOnlyLogs : Prop :=
  romRow 0x01#8 0x02#8 .sysRst ∧
  ∀ (p : List Byte) (s : State), exec (.sysRst p) s = .next { s with out := s.out ++ [.log .resetReply] }

/-- `PRD_A1` to `PRD_A4`: the whole payload, up to 32 bytes and the empty one included, is published as the string (the spec's
decisions D32 and D40). -/
def Obligations.ProductStringsPublishThePayload : Prop :=
  romRow 0x02#8 0xA1#8 .prdA1 ∧ romRow 0x02#8 0xA2#8 .prdA2 ∧ romRow 0x02#8 0xA3#8 .prdA3 ∧ romRow 0x02#8 0xA4#8 .prdA4 ∧
  ∀ (p : List Byte) (s : State), p.length ≤ 32 →
    exec (.prdA1 p) s = .next { s with out := s.out ++ [.pub .productA1 (.bytes p)] } ∧
    exec (.prdA2 p) s = .next { s with out := s.out ++ [.pub .productA2 (.bytes p)] } ∧
    exec (.prdA3 p) s = .next { s with out := s.out ++ [.pub .productA3 (.bytes p)] } ∧
    exec (.prdA4 p) s = .next { s with out := s.out ++ [.pub .productA4 (.bytes p)] }

/-- `PRD_A1` to `PRD_A4` with more than 32 bytes: `E_OVERSTR` with the length, no publish (the spec's decision D40). -/
def Obligations.OverlongProductStringIsReported : Prop :=
  ∀ (p : List Byte) (s : State), 32 < p.length →
    exec (.prdA1 p) s = .next { s with out := s.out ++ [.err (.overstr 0x02#8 0xA1#8 p.length)] } ∧
    exec (.prdA2 p) s = .next { s with out := s.out ++ [.err (.overstr 0x02#8 0xA2#8 p.length)] } ∧
    exec (.prdA3 p) s = .next { s with out := s.out ++ [.err (.overstr 0x02#8 0xA3#8 p.length)] } ∧
    exec (.prdA4 p) s = .next { s with out := s.out ++ [.err (.overstr 0x02#8 0xA4#8 p.length)] }

/-- `PRD_PROTO`: code 1 is common, 3 Tuya Wi-Fi, every other code unknown; bytes after the first are ignored (the spec's
decision D29). -/
def Obligations.ProtocolTypeCodesArePublished : Prop :=
  romRow 0x02#8 0xA5#8 .prdProto ∧
  ∀ (b : Byte) (p : List Byte) (s : State), ∃ t : ProtocolType,
    (b.toNat = 1 → t = .common) ∧ (b.toNat = 3 → t = .tuyaWifi) ∧ (b.toNat ≠ 1 ∧ b.toNat ≠ 3 → t = .unknown) ∧
    exec (.prdProto (b :: p)) s = .next { s with out := s.out ++ [.pub .protocolType (.protocol t)] }

/-! ### WorkStatus and DetectionRange families -/

/-- The three scene commands publish an index of 1 to 4 unchanged, and nothing else changes (published as the index: the spec's
decision D18). -/
def Obligations.SceneIndexIsPublished : Prop :=
  romRow 0x05#8 0x01#8 .wsScene01 ∧ romRow 0x05#8 0x07#8 .wsScene07 ∧ romRow 0x05#8 0x87#8 .wsScene87 ∧
  ∀ (b : Byte) (p : List Byte) (s : State), 1 ≤ b.toNat → b.toNat ≤ 4 →
    exec (.wsScene01 (b :: p)) s = .next { s with out := s.out ++ [.pub .sceneMode (.idx b)] } ∧
    exec (.wsScene07 (b :: p)) s = .next { s with out := s.out ++ [.pub .sceneMode (.idx b)] } ∧
    exec (.wsScene87 (b :: p)) s = .next { s with out := s.out ++ [.pub .sceneMode (.idx b)] }

/-- Sensitivity is published raw, with no range check (the spec's decision D19); init-complete as a boolean, every non-zero byte
true (the spec's decision D15). -/
def Obligations.SensitivityAndInitCompleteArePublished : Prop :=
  romRow 0x05#8 0x08#8 .wsSens08 ∧ romRow 0x05#8 0x88#8 .wsSens88 ∧ romRow 0x05#8 0x81#8 .wsInit81 ∧
  ∀ (b : Byte) (p : List Byte) (s : State),
    exec (.wsSens08 (b :: p)) s = .next { s with out := s.out ++ [.pub .sensitivity (.u8 b)] } ∧
    exec (.wsSens88 (b :: p)) s = .next { s with out := s.out ++ [.pub .sensitivity (.u8 b)] } ∧
    exec (.wsInit81 (b :: p)) s =
      .next { s with out := s.out ++ [.pub .initComplete (.bool (if b.toNat = 0 then false else true))] }

/-- The four distance commands publish `P(0)*256 + P(1)` as a 16-bit value, and nothing else changes. -/
def Obligations.MaximumDistancesArePublished : Prop :=
  romRow 0x07#8 0x01#8 .drMov01 ∧ romRow 0x07#8 0x81#8 .drMov81 ∧ romRow 0x07#8 0x04#8 .drSta04 ∧
  romRow 0x07#8 0x84#8 .drSta84 ∧
  ∀ (a b : Byte) (p : List Byte) (s : State), ∃ v : BitVec 16, v.toNat = a.toNat * 256 + b.toNat ∧
    exec (.drMov01 (a :: b :: p)) s = .next { s with out := s.out ++ [.pub .movingMaxDist (.u16 v)] } ∧
    exec (.drMov81 (a :: b :: p)) s = .next { s with out := s.out ++ [.pub .movingMaxDist (.u16 v)] } ∧
    exec (.drSta04 (a :: b :: p)) s = .next { s with out := s.out ++ [.pub .staticMaxDist (.u16 v)] } ∧
    exec (.drSta84 (a :: b :: p)) s = .next { s with out := s.out ++ [.pub .staticMaxDist (.u16 v)] }

/-- Multi-byte payload fields are big-endian: the 16-bit and 32-bit fields, read with `MemRead` from the frame or from the
payload, have the value 30 R95 writes; neither is scaled, offset or range-checked. -/
def Obligations.MultiByteFieldsAreBigEndian : Prop :=
  (∀ (cc ss a b : Byte) (p : List Byte),
    memRead (frame cc ss (a :: b :: p)) 6 2 = some (a.toNat * 256 + b.toNat) ∧
    (u16Of (a :: b :: p)).toNat = a.toNat * 256 + b.toNat) ∧
  (∀ (cc ss a b c d : Byte) (p : List Byte),
    memRead (frame cc ss (a :: b :: c :: d :: p)) 6 4 =
      some (a.toNat * 2 ^ 24 + b.toNat * 2 ^ 16 + c.toNat * 2 ^ 8 + d.toNat) ∧
    (u32Of (a :: b :: c :: d :: p)).toNat = a.toNat * 2 ^ 24 + b.toNat * 2 ^ 16 + c.toNat * 2 ^ 8 + d.toNat) ∧
  (u32Of [0x00#8, 0x00#8, 0x00#8, 0x05#8]).toNat = 5

/-! ### OpenInfo family -/

/-- The two output-switch commands write `dialect` whatever it held (custom for a non-zero byte, standard for zero) and publish
the boolean every time; nothing else changes (the boolean: the spec's decision D15). -/
def Obligations.OutputSwitchWritesTheDialect : Prop :=
  romRow 0x08#8 0x00#8 .oiSw00 ∧ romRow 0x08#8 0x80#8 .oiSw80 ∧
  ∀ (b : Byte) (p : List Byte) (s : State), ∃ (d : Dialect) (v : Bool),
    (b.toNat ≠ 0 → d = .customProtocol ∧ v = true) ∧ (b.toNat = 0 → d = .standardProtocol ∧ v = false) ∧
    exec (.oiSw00 (b :: p)) s = .next { s with dialect := d, out := s.out ++ [.pub .outputSwitch (.bool v)] } ∧
    exec (.oiSw80 (b :: p)) s = .next { s with dialect := d, out := s.out ++ [.pub .outputSwitch (.bool v)] }

/-- The burst report with all five fields: four cache slots are written in every case, the static distance is published every
time, the other four only when the slot did not hold the value; the speed is the raw byte minus 10, signed. The layout of the
five bytes is the spec's decision D16, the scaling its decision D17. -/
def Obligations.BurstReportPublishesFiveFields : Prop :=
  romRow 0x08#8 0x01#8 .oiBurst01 ∧
  ∀ (a b c d e : Byte) (p : List Byte) (s : State), ∃ v : BitVec 9, v.toInt = (e.toNat : Int) - 10 ∧
    exec (.oiBurst01 (a :: b :: c :: d :: e :: p)) s = .next { s with
      cache := { s.cache with
        spatialStatic := some a, spatialMotion := some c, motionDist := some d, motionSpeed := some v }
      out := s.out ++ (if s.cache.spatialStatic = some a then [] else [.pub .spatialStatic (.u8 a)])
        ++ [.pub .staticDist (.half8 b)]
        ++ (if s.cache.spatialMotion = some c then [] else [.pub .spatialMotion (.u8 c)])
        ++ (if s.cache.motionDist = some d then [] else [.pub .motionDist (.half8 d)])
        ++ (if s.cache.motionSpeed = some v then [] else [.pub .motionSpeed (.shalf v)]) }

/-- A burst report with fewer than five bytes, as one equation: each field inside the payload is decoded as in the full report (its
slot written, its value published; the spatial-static, spatial-motion and motion-distance fields only when the slot did not hold
it), in field order; each field beyond the payload is neither published nor written to its slot and is reported with `E_SHORT`,
after the publishes, in field order; nothing else changes (short payloads: the spec's decision D13; the layout: D16). -/
def Obligations.ShortBurstReportDecodesWhatIsThere : Prop :=
  ∀ (p : List Byte) (s : State), p.length < 5 →
    exec (.oiBurst01 p) s = .next { s with
      cache := { s.cache with
        spatialStatic := if 1 ≤ p.length then some (byteAt p 0) else s.cache.spatialStatic
        spatialMotion := if 3 ≤ p.length then some (byteAt p 2) else s.cache.spatialMotion
        motionDist := if 4 ≤ p.length then some (byteAt p 3) else s.cache.motionDist }
      out := s.out
        ++ (if 1 ≤ p.length ∧ s.cache.spatialStatic ≠ some (byteAt p 0) then [.pub .spatialStatic (.u8 (byteAt p 0))] else [])
        ++ (if 2 ≤ p.length then [.pub .staticDist (.half8 (byteAt p 1))] else [])
        ++ (if 3 ≤ p.length ∧ s.cache.spatialMotion ≠ some (byteAt p 2) then [.pub .spatialMotion (.u8 (byteAt p 2))] else [])
        ++ (if 4 ≤ p.length ∧ s.cache.motionDist ≠ some (byteAt p 3) then [.pub .motionDist (.half8 (byteAt p 3))] else [])
        ++ ((List.range 5).filter (fun j => decide (p.length ≤ j))).map
          (fun j => .err (.short 0x08#8 0x01#8 (j + 1) p.length)) }

/-- The three approach commands of both families publish an index of 0 to 2 under one metric id (one id: the spec's decision D12;
the bound of `OI_APPR_06`: D20). -/
def Obligations.ApproachStateIsPublished : Prop :=
  romRow 0x08#8 0x06#8 .oiAppr06 ∧ romRow 0x80#8 0x0B#8 .huAppr0B ∧ romRow 0x80#8 0x8B#8 .huAppr8B ∧
  ∀ (b : Byte) (p : List Byte) (s : State), b.toNat ≤ 2 →
    exec (.oiAppr06 (b :: p)) s = .next { s with out := s.out ++ [.pub .approach (.idx b)] } ∧
    exec (.huAppr0B (b :: p)) s = .next { s with out := s.out ++ [.pub .approach (.idx b)] } ∧
    exec (.huAppr8B (b :: p)) s = .next { s with out := s.out ++ [.pub .approach (.idx b)] }

/-- The four amplitude commands of both families write the one shared slot in every case and publish the raw byte exactly when the
slot did not hold it (the shared slot: the spec's decision D12). -/
def Obligations.AmplitudeGoesThroughTheSharedSlot : Prop :=
  romRow 0x08#8 0x07#8 .oiAmpl07 ∧ romRow 0x08#8 0x87#8 .oiAmpl87 ∧ romRow 0x80#8 0x03#8 .huAmpl03 ∧
  romRow 0x80#8 0x83#8 .huAmpl83 ∧
  ∀ (b : Byte) (p : List Byte) (s t : State),
    t = { s with
      cache := { s.cache with moveAmpl := some b }
      out := s.out ++ (if s.cache.moveAmpl = some b then [] else [.pub .moveAmpl (.u8 b)]) } →
    exec (.oiAmpl07 (b :: p)) s = .next t ∧ exec (.oiAmpl87 (b :: p)) s = .next t ∧
    exec (.huAmpl03 (b :: p)) s = .next t ∧ exec (.huAmpl83 (b :: p)) s = .next t

/-- The four threshold commands publish the raw byte every time, unchecked (the spec's decision D19). -/
def Obligations.ThresholdsArePublishedRaw : Prop :=
  romRow 0x08#8 0x08#8 .oiJth08 ∧ romRow 0x08#8 0x88#8 .oiJth88 ∧ romRow 0x08#8 0x09#8 .oiAth09 ∧
  romRow 0x08#8 0x89#8 .oiAth89 ∧
  ∀ (b : Byte) (p : List Byte) (s : State),
    exec (.oiJth08 (b :: p)) s = .next { s with out := s.out ++ [.pub .judgeThresh (.u8 b)] } ∧
    exec (.oiJth88 (b :: p)) s = .next { s with out := s.out ++ [.pub .judgeThresh (.u8 b)] } ∧
    exec (.oiAth09 (b :: p)) s = .next { s with out := s.out ++ [.pub .amplTrigThresh (.u8 b)] } ∧
    exec (.oiAth89 (b :: p)) s = .next { s with out := s.out ++ [.pub .amplTrigThresh (.u8 b)] }

/-- The boundary commands publish an index of 1 to 10, the presence-distance command one of 0 to 6 (the spec's decisions D18,
D20). -/
def Obligations.BoundariesAndPresenceDistanceArePublished : Prop :=
  romRow 0x08#8 0x0A#8 .oiPbd0A ∧ romRow 0x08#8 0x8A#8 .oiPbd8A ∧ romRow 0x08#8 0x0B#8 .oiTbd0B ∧
  romRow 0x08#8 0x8B#8 .oiTbd8B ∧ romRow 0x08#8 0x83#8 .oiPdist83 ∧
  (∀ (b : Byte) (p : List Byte) (s : State), 1 ≤ b.toNat → b.toNat ≤ 10 →
    exec (.oiPbd0A (b :: p)) s = .next { s with out := s.out ++ [.pub .perceptionBoundary (.idx b)] } ∧
    exec (.oiPbd8A (b :: p)) s = .next { s with out := s.out ++ [.pub .perceptionBoundary (.idx b)] } ∧
    exec (.oiTbd0B (b :: p)) s = .next { s with out := s.out ++ [.pub .triggerBoundary (.idx b)] } ∧
    exec (.oiTbd8B (b :: p)) s = .next { s with out := s.out ++ [.pub .triggerBoundary (.idx b)] }) ∧
  ∀ (b : Byte) (p : List Byte) (s : State), b.toNat ≤ 6 →
    exec (.oiPdist83 (b :: p)) s = .next { s with out := s.out ++ [.pub .presenceDist (.idx b)] }

/-- The six timer commands: the 32-bit big-endian value is written to the timer's slot in every case and published exactly when the
slot did not hold it. -/
def Obligations.TimersGoThroughTheirSlots : Prop :=
  romRow 0x08#8 0x0C#8 .oiTtrig0C ∧ romRow 0x08#8 0x8C#8 .oiTtrig8C ∧ romRow 0x08#8 0x0D#8 .oiTrest0D ∧
  romRow 0x08#8 0x8D#8 .oiTrest8D ∧ romRow 0x08#8 0x0E#8 .oiTunm0E ∧ romRow 0x08#8 0x8E#8 .oiTunm8E ∧
  ∀ (a b c d : Byte) (p : List Byte) (s : State), ∃ v : BitVec 32,
    v.toNat = a.toNat * 2 ^ 24 + b.toNat * 2 ^ 16 + c.toNat * 2 ^ 8 + d.toNat ∧
    (∀ t : State, t = { s with
        cache := { s.cache with triggerTime := some v }
        out := s.out ++ (if s.cache.triggerTime = some v then [] else [.pub .triggerTime (.u32 v)]) } →
      exec (.oiTtrig0C (a :: b :: c :: d :: p)) s = .next t ∧ exec (.oiTtrig8C (a :: b :: c :: d :: p)) s = .next t) ∧
    (∀ t : State, t = { s with
        cache := { s.cache with restTime := some v }
        out := s.out ++ (if s.cache.restTime = some v then [] else [.pub .restTime (.u32 v)]) } →
      exec (.oiTrest0D (a :: b :: c :: d :: p)) s = .next t ∧ exec (.oiTrest8D (a :: b :: c :: d :: p)) s = .next t) ∧
    (∀ t : State, t = { s with
        cache := { s.cache with unmannedTime := some v }
        out := s.out ++ (if s.cache.unmannedTime = some v then [] else [.pub .unmannedTime (.u32 v)]) } →
      exec (.oiTunm0E (a :: b :: c :: d :: p)) s = .next t ∧ exec (.oiTunm8E (a :: b :: c :: d :: p)) s = .next t)

/-! ### Human family -/

/-- Presence is published as a boolean every time (non-zero is true: the spec's decision D15), motion state with an index of 0 to
2, unmanned duration with one of 0 to 8. -/
def Obligations.PresenceMotionAndDurationArePublished : Prop :=
  romRow 0x80#8 0x01#8 .huPres01 ∧ romRow 0x80#8 0x81#8 .huPres81 ∧ romRow 0x80#8 0x02#8 .huMot02 ∧
  romRow 0x80#8 0x82#8 .huMot82 ∧ romRow 0x80#8 0x0A#8 .huUnm0A ∧ romRow 0x80#8 0x8A#8 .huUnm8A ∧
  ∀ (b : Byte) (p : List Byte) (s : State),
    exec (.huPres01 (b :: p)) s =
      .next { s with out := s.out ++ [.pub .presence (.bool (if b.toNat = 0 then false else true))] } ∧
    exec (.huPres81 (b :: p)) s =
      .next { s with out := s.out ++ [.pub .presence (.bool (if b.toNat = 0 then false else true))] } ∧
    (b.toNat ≤ 2 →
      exec (.huMot02 (b :: p)) s = .next { s with out := s.out ++ [.pub .motionState (.idx b)] } ∧
      exec (.huMot82 (b :: p)) s = .next { s with out := s.out ++ [.pub .motionState (.idx b)] }) ∧
    (b.toNat ≤ 8 →
      exec (.huUnm0A (b :: p)) s = .next { s with out := s.out ++ [.pub .unmannedDuration (.idx b)] } ∧
      exec (.huUnm8A (b :: p)) s = .next { s with out := s.out ++ [.pub .unmannedDuration (.idx b)] })

/-! ### Per-field errors -/

/-- An index outside its range is reported with `E_RANGE` and the refused value, and nothing else happens: every range-checked
command with its bounds (two of the bounds: the spec's decision D20). -/
def Obligations.OutOfRangeIndexIsReported : Prop :=
  ∀ (b : Byte) (p : List Byte) (s : State) (e : Byte → Byte → State),
    (∀ c k : Byte, e c k = { s with out := s.out ++ [.err (.range c k b)] }) →
    (b.toNat = 0 ∨ 5 ≤ b.toNat →
      exec (.wsScene01 (b :: p)) s = .next (e 0x05#8 0x01#8) ∧ exec (.wsScene07 (b :: p)) s = .next (e 0x05#8 0x07#8) ∧
      exec (.wsScene87 (b :: p)) s = .next (e 0x05#8 0x87#8)) ∧
    (b.toNat = 0 ∨ 11 ≤ b.toNat →
      exec (.oiPbd0A (b :: p)) s = .next (e 0x08#8 0x0A#8) ∧ exec (.oiPbd8A (b :: p)) s = .next (e 0x08#8 0x8A#8) ∧
      exec (.oiTbd0B (b :: p)) s = .next (e 0x08#8 0x0B#8) ∧ exec (.oiTbd8B (b :: p)) s = .next (e 0x08#8 0x8B#8)) ∧
    (7 ≤ b.toNat → exec (.oiPdist83 (b :: p)) s = .next (e 0x08#8 0x83#8)) ∧
    (3 ≤ b.toNat →
      exec (.oiAppr06 (b :: p)) s = .next (e 0x08#8 0x06#8) ∧ exec (.huAppr0B (b :: p)) s = .next (e 0x80#8 0x0B#8) ∧
      exec (.huAppr8B (b :: p)) s = .next (e 0x80#8 0x8B#8) ∧ exec (.huMot02 (b :: p)) s = .next (e 0x80#8 0x02#8) ∧
      exec (.huMot82 (b :: p)) s = .next (e 0x80#8 0x82#8)) ∧
    (9 ≤ b.toNat →
      exec (.huUnm0A (b :: p)) s = .next (e 0x80#8 0x0A#8) ∧ exec (.huUnm8A (b :: p)) s = .next (e 0x80#8 0x8A#8))

/-- A payload shorter than the command's one field is reported with `E_SHORT`, the bytes wanted and the bytes present, and nothing
else happens: no publish, no `dialect`, no cache write (the spec's decision D13). The commands without a field, the product
strings and the burst report have statements of their own. -/
def Obligations.ShortPayloadIsReported : Prop :=
  ∀ (i : Instr) (s : State) (k : Nat),
    (k = match i with
      | .sysHb _ | .sysRst _ | .prdA1 _ | .prdA2 _ | .prdA3 _ | .prdA4 _ | .oiBurst01 _ => 0
      | .drMov01 _ | .drMov81 _ | .drSta04 _ | .drSta84 _ => 2
      | .oiTtrig0C _ | .oiTtrig8C _ | .oiTrest0D _ | .oiTrest8D _ | .oiTunm0E _ | .oiTunm8E _ => 4
      | _ => 1) →
    i.payload.length < k →
    exec i s = .next { s with out := s.out ++ [.err (.short i.control i.command k i.payload.length)] }

/-! ### Frames of the dispatcher -/

/-- What a command leaves unchanged, for all 48 commands and every payload: the Frame Decoder's registers, every byte of the buffer,
the requests and parameters, and every event already put out; `hb` changes only by `SYS_HB`, `dialect` only by the two
output-switch commands, each cache slot only by the commands of 10 R41. No command stops. -/
def Obligations.CommandsLeaveTheRestAlone : Prop :=
  ∀ (i : Instr) (s : State), ∃ t : State, exec i s = .next t ∧
    t.st = s.st ∧ t.widx = s.widx ∧ t.lenStage = s.lenStage ∧ t.cnt = s.cnt ∧ (∀ a, t.buf.read a = s.buf.read a) ∧
    t.buf = s.buf ∧ t.input = s.input ∧ t.params = s.params ∧ t.choices = s.choices ∧
    (∃ es : List Event, t.out = s.out ++ es ∧ es.length ≤ 5) ∧
    (t.hb ≠ s.hb → ∃ p, i = .sysHb p) ∧
    (t.dialect ≠ s.dialect → ∃ p, i = .oiSw00 p ∨ i = .oiSw80 p) ∧
    (t.cache.moveAmpl ≠ s.cache.moveAmpl → ∃ p, i = .oiAmpl07 p ∨ i = .oiAmpl87 p ∨ i = .huAmpl03 p ∨ i = .huAmpl83 p) ∧
    (t.cache.triggerTime ≠ s.cache.triggerTime → ∃ p, i = .oiTtrig0C p ∨ i = .oiTtrig8C p) ∧
    (t.cache.restTime ≠ s.cache.restTime → ∃ p, i = .oiTrest0D p ∨ i = .oiTrest8D p) ∧
    (t.cache.unmannedTime ≠ s.cache.unmannedTime → ∃ p, i = .oiTunm0E p ∨ i = .oiTunm8E p) ∧
    (t.cache.spatialStatic ≠ s.cache.spatialStatic ∨ t.cache.spatialMotion ≠ s.cache.spatialMotion ∨
      t.cache.motionDist ≠ s.cache.motionDist ∨ t.cache.motionSpeed ≠ s.cache.motionSpeed → ∃ p, i = .oiBurst01 p)

/-- The two output-switch commands are the only writers of `dialect` besides reset: a step that changes it serves a reset or
completes an output-switch frame. And nothing else in the block depends on it: from states that differ in `dialect` alone, a
step gives states that differ in `dialect` at most, or the same stop. -/
def Obligations.DialectIsWrittenBySwitchCommandsAndResetOnly : Prop :=
  (∀ s t : State, step s = .next t → t.dialect ≠ s.dialect →
    switchCompletes s ∨ ∃ rest, s.input = .reset :: rest) ∧
  ∀ (s : State) (d : Dialect),
    outRel (fun t u => u = { t with dialect := u.dialect }) (step s) (step { s with dialect := d })

/-- A value decoded again through the same slot is not published again and changes nothing: two amplitude commands of any family with
the same byte, and any two commands of one timer, in either order, with the same four bytes; of a burst report repeated, only the
static distance is published (the shared slot and the static distance: the spec's decisions D12, D23). -/
def Obligations.RepeatedValuesAreNotPublishedAgain : Prop :=
  (∀ (f g : List Byte → Instr) (b : Byte) (p q : List Byte) (s t : State),
    f ∈ [Instr.oiAmpl07, .oiAmpl87, .huAmpl03, .huAmpl83] → g ∈ [Instr.oiAmpl07, .oiAmpl87, .huAmpl03, .huAmpl83] →
    exec (f (b :: p)) s = .next t → exec (g (b :: q)) t = .next t) ∧
  (∀ (f g : List Byte → Instr) (a b c d : Byte) (p q : List Byte) (s t : State),
    (f, g) ∈ [(Instr.oiTtrig0C, Instr.oiTtrig8C), (.oiTtrig8C, .oiTtrig0C), (.oiTtrig8C, .oiTtrig8C), (.oiTtrig0C, .oiTtrig0C),
      (.oiTrest0D, .oiTrest8D), (.oiTrest8D, .oiTrest0D), (.oiTrest8D, .oiTrest8D), (.oiTrest0D, .oiTrest0D),
      (.oiTunm0E, .oiTunm8E), (.oiTunm8E, .oiTunm0E), (.oiTunm8E, .oiTunm8E), (.oiTunm0E, .oiTunm0E)] →
    exec (f (a :: b :: c :: d :: p)) s = .next t → exec (g (a :: b :: c :: d :: q)) t = .next t) ∧
  (∀ (a b c d e : Byte) (p q : List Byte) (s t : State),
    exec (.oiBurst01 (a :: b :: c :: d :: e :: p)) s = .next t →
    exec (.oiBurst01 (a :: b :: c :: d :: e :: q)) t = .next { t with out := t.out ++ [.pub .staticDist (.half8 b)] })

/-! ### The Frame Decoder, state by state -/

/-- State `Idle`: 0x53 is stored at address 0 and starts a frame; every other byte changes nothing and gives no event. -/
def Obligations.IdleTakesOnlyTheFirstHeaderByte : Prop :=
  ∀ (b : Byte) (s : State), s.st = .idle → 41 ≤ s.params.bufCap →
    (b = 0x53#8 → rx b s = .next { s with buf := s.buf.write 0 b, widx := 1, st := .sawHeader1 }) ∧
    (b ≠ 0x53#8 → rx b s = .next s)

/-- State `SawHeader1`: 0x59 is stored and commits the header; every other byte, 0x53 included, raises `E_HDR2` and returns the
decoder to `Idle`. -/
def Obligations.SecondHeaderByteCommitsOrAborts : Prop :=
  ∀ (b : Byte) (s : State), s.st = .sawHeader1 → 41 ≤ s.params.bufCap →
    (b = 0x59#8 → rx b s = .next { s with buf := s.buf.write 1 b, widx := 2, st := .readControl }) ∧
    (b ≠ 0x59#8 → rx b s = .next { s with
      st := .idle, widx := 0, lenStage := 0, cnt := 0, out := s.out ++ [.err (.hdr2 b)] })

/-- States `ReadControl` and `ReadCommand`: any byte is stored, at addresses 2 and 3, without an event. -/
def Obligations.ControlAndCommandWordsAreStored : Prop :=
  ∀ (b : Byte) (s : State), 41 ≤ s.params.bufCap →
    (s.st = .readControl → rx b s = .next { s with buf := s.buf.write 2 b, widx := 3, st := .readCommand }) ∧
    (s.st = .readCommand → rx b s = .next { s with buf := s.buf.write 3 b, widx := 4, st := .readLenHi })

/-- State `ReadLenHi`: a byte up to 4 is stored and staged times 256; a byte above 4 raises `E_LEN_HI` and the staged length is
discarded. -/
def Obligations.HighLengthByteIsStagedOrRefused : Prop :=
  ∀ (b : Byte) (s : State), s.st = .readLenHi → 41 ≤ s.params.bufCap →
    (b.toNat ≤ 4 → rx b s = .next { s with
      buf := s.buf.write 4 b, widx := 5, lenStage := b.toNat * 256, st := .readLenLo }) ∧
    (4 < b.toNat → rx b s = .next { s with
      st := .idle, widx := 0, lenStage := 0, cnt := 0, out := s.out ++ [.err (.lenHi b)] })

/-- State `ReadLenLo`: the untruncated total is accepted up to 32 and becomes length and countdown; a total of 0 skips
`ReadPayload` (the spec's decision D8); a larger total raises `E_LEN_OVER` with the total. -/
def Obligations.TotalLengthIsAcceptedUpTo32 : Prop :=
  ∀ (b : Byte) (s : State), s.st = .readLenLo → 41 ≤ s.params.bufCap →
    (s.lenStage + b.toNat = 0 → rx b s = .next { s with
      buf := s.buf.write 5 b, widx := 6, lenStage := 0, cnt := 0, st := .readChecksum }) ∧
    (1 ≤ s.lenStage + b.toNat → s.lenStage + b.toNat ≤ 32 → rx b s = .next { s with
      buf := s.buf.write 5 b, widx := 6, lenStage := s.lenStage + b.toNat, cnt := s.lenStage + b.toNat,
      st := .readPayload }) ∧
    (32 < s.lenStage + b.toNat → rx b s = .next { s with
      st := .idle, widx := 0, lenStage := 0, cnt := 0, out := s.out ++ [.err (.lenOver (s.lenStage + b.toNat))] })

/-- State `ReadPayload`, in every good state: the countdown is 1 to 32, the byte is stored at `6 + (len_stage - cnt)` (at most 37)
whatever it is, and the countdown goes down by one; at 0 the next state is `ReadChecksum`. -/
def Obligations.PayloadBytesAreStoredAndCounted : Prop :=
  ∀ (b : Byte) (s : State), BlockInv s → s.st = .readPayload →
    1 ≤ s.cnt ∧ s.cnt ≤ 32 ∧ s.widx = 6 + (s.lenStage - s.cnt) ∧ s.widx ≤ 37 ∧
    (s.cnt = 1 → rx b s = .next { s with
      buf := s.buf.write s.widx b, widx := s.widx + 1, cnt := 0, st := .readChecksum }) ∧
    (1 < s.cnt → rx b s = .next { s with
      buf := s.buf.write s.widx b, widx := s.widx + 1, cnt := s.cnt - 1, st := .readPayload })

/-- State `ReadChecksum`, in every good state: `widx` is `6 + n` and any byte is stored there. State `SawTail1`: `widx` is `7 + n`,
0x54 is stored there, and every other byte raises `E_TAIL1` without the checksum being looked at. -/
def Obligations.ChecksumAndFirstTailByteAreStored : Prop :=
  ∀ (b : Byte) (s : State), BlockInv s →
    (s.st = .readChecksum → rx b s = .next { s with
      buf := s.buf.write (6 + s.lenStage) b, widx := 6 + s.lenStage + 1, st := .sawTail1 }) ∧
    (s.st = .sawTail1 → b = 0x54#8 → rx b s = .next { s with
      buf := s.buf.write (7 + s.lenStage) b, widx := 7 + s.lenStage + 1, st := .sawTail2 }) ∧
    (s.st = .sawTail1 → b ≠ 0x54#8 → rx b s = .next { s with
      st := .idle, widx := 0, lenStage := 0, cnt := 0, out := s.out ++ [.err (.tail1 b)] })

/-- State `SawTail2`, in every good state: 0x43 is stored and completes the frame, every other byte raises `E_TAIL2`; either way the
decode state is reset last and the decoder is in `Idle`. -/
def Obligations.SecondTailByteCompletesOrDiscards : Prop :=
  ∀ (b : Byte) (s : State), BlockInv s → s.st = .sawTail2 →
    (b = 0x43#8 → ∃ u : State, complete (tailStored s) = .next u ∧
      rx b s = .next { u with st := .idle, widx := 0, lenStage := 0, cnt := 0 }) ∧
    (b ≠ 0x43#8 → rx b s = .next { s with
      st := .idle, widx := 0, lenStage := 0, cnt := 0, out := s.out ++ [.err (.tail2 b)] })

/-- The checksum gate is total: with both tail bytes right and a checksum byte that is not the sum, the frame is discarded with
`E_CKSUM` (computed sum, received byte), and `dialect`, `hb` and the cache keep their values. -/
def Obligations.ChecksumMismatchIsNeverDispatched : Prop :=
  ∀ s : State, BlockInv s → s.st = .sawTail2 →
    checksum (snapshot (tailStored s)) ≠ s.buf.read (6 + s.lenStage) →
    rx 0x43#8 s = .next { s with
      buf := s.buf.write s.widx 0x43#8, st := .idle, widx := 0, lenStage := 0, cnt := 0,
      out := s.out ++ [.err (.cksum (checksum (snapshot (tailStored s))) (s.buf.read (6 + s.lenStage)))] }

/-- A completed frame whose checksum is right is dispatched in the same step: the ROM's answer for the pair in the buffer, with the
buffer's payload, is run, and the decoder clears itself (one atomic step: the spec's decision D9). -/
def Obligations.CompletedFrameIsDispatched : Prop :=
  ∀ s : State, BlockInv s → s.st = .sawTail2 →
    checksum (snapshot (tailStored s)) = s.buf.read (6 + s.lenStage) →
    rx 0x43#8 s = andThen (runRom (romLookup (s.buf.read 2) (s.buf.read 3) (payloadOf s)) (tailStored s))
      (fun t => .next t.fdClear)

/-- An `rx` step writes at most one byte of the buffer: the received byte at the write index; every other byte reads as before. -/
def Obligations.ReceivingWritesAtMostOneByte : Prop :=
  ∀ (b : Byte) (s t : State), BlockInv s → rx b s = .next t →
    (∀ a, a ≠ s.widx → t.buf.read a = s.buf.read a) ∧
    (t.buf.read s.widx = b ∨ t.buf.read s.widx = s.buf.read s.widx)

/-! ### The Checksum Unit -/

/-- `checksum` sums the bytes at positions 0 to `L - 4` modulo 256, 0 for the empty range, 44 hex for the worked example; `verify`
compares it with the byte at `L - 3` and looks at nothing else. -/
def Obligations.ChecksumAndVerifyAreTheSum : Prop :=
  (∀ bytes : List Byte, 3 ≤ bytes.length →
    (checksum bytes).toNat = ((List.range (bytes.length - 3)).map (fun i => (byteAt bytes i).toNat)).sum % 256 ∧
    (verify bytes = true ↔ checksum bytes = byteAt bytes (bytes.length - 3))) ∧
  (∀ k t0 t1 : Byte, checksum [k, t0, t1] = 0x00#8) ∧
  checksum [0x53#8, 0x59#8, 0x08#8, 0x80#8, 0x00#8, 0x01#8, 0x0F#8, 0x44#8, 0x54#8, 0x43#8] = 0x44#8 ∧
  verify [0x53#8, 0x59#8, 0x08#8, 0x80#8, 0x00#8, 0x01#8, 0x0F#8, 0x44#8, 0x54#8, 0x43#8] = true ∧
  verify [0x53#8, 0x59#8, 0x08#8, 0x80#8, 0x00#8, 0x01#8, 0x0F#8, 0x45#8, 0x54#8, 0x43#8] = false

/-- The 8-bit accumulator that wraps agrees with the checksum. The checksum catches every change of exactly one summed byte and
every wrong checksum byte; it does not catch a reordering of the summed bytes. -/
def Obligations.ChecksumWrapsAndCatchesOneByteNotReordering : Prop :=
  (∀ bytes : List Byte, runningSum 0x00#8 (bytes.take (bytes.length - 3)) = checksum bytes) ∧
  ∀ (body : List Byte) (k t0 t1 : Byte), verify (body ++ [k, t0, t1]) = true →
    (∀ (i : Nat) (v : Byte), i < body.length → v ≠ byteAt body i → verify (body.set i v ++ [k, t0, t1]) = false) ∧
    (∀ k' : Byte, k' ≠ k → verify (body ++ [k', t0, t1]) = false) ∧
    (∀ body' : List Byte, body'.Perm body → verify (body' ++ [k, t0, t1]) = true)

/-! ### The step -/

/-- A step serves the first request, whichever of the four it is, on an empty output list; while nothing is asked the state stays
and nothing is put out. The request list and the per-step output list are the model's choices (notes/assumptions/1.md, 2.md), and
so is the one request for a byte and `hb_take` in one cycle (notes/assumptions/5.md). -/
def Obligations.StepServesTheFirstRequest : Prop :=
  (∀ s : State, s.input = [] → step s = .next { s with out := [] }) ∧
  (∀ (s : State) (b : Byte) (rest : List Request), s.input = .rx b :: rest →
    step s = rx b { s with input := rest, out := [] }) ∧
  (∀ (s : State) (rest : List Request), s.input = .hbTake :: rest →
    step s = .next (hbTake { s with input := rest, out := [] })) ∧
  (∀ (s : State) (rest : List Request), s.input = .reset :: rest →
    step s = .next (resetBlock { s with input := rest, out := [] })) ∧
  (∀ (s : State) (b : Byte) (rest : List Request), s.input = .rxAndTake b :: rest →
    step s = rxAndTake b { s with input := rest, out := [] })

/-- `rst` has priority over the other input ports (the spec's decision D25); without it a sample asks for what its ports say. Two
clauses are the model's choices: the inputs beside `rst` are dropped (notes/assumptions/6.md), and a byte and `hb_take` in one
sample, two steps whose order the spec leaves open (its decision D26), are the one request `rxAndTake` of the free order
(notes/assumptions/5.md). -/
def Obligations.ResetPortHasPriority : Prop :=
  (∀ (v : Bool) (b : Byte) (h : Bool), PortSample.request ⟨true, v, b, h⟩ = some .reset) ∧
  (∀ b : Byte, PortSample.request ⟨false, true, b, false⟩ = some (.rx b) ∧
    PortSample.request ⟨false, true, b, true⟩ = some (.rxAndTake b) ∧
    PortSample.request ⟨false, false, b, true⟩ = some .hbTake ∧ PortSample.request ⟨false, false, b, false⟩ = none)

/-- A step runs the decoded instruction: where the received bytes and the arriving 0x43 decode to `i`, the step is `exec i` on the
state with that byte stored, followed by the decoder's return to `Idle`. -/
def Obligations.StepRunsTheDecodedInstruction : Prop :=
  ∀ (i : Instr) (s : State) (rest : List Request), s.st = .sawTail2 → s.input = .rx 0x43#8 :: rest →
    s.widx < s.params.bufCap → s.buf.wf = true → decode (snapshot s ++ [0x43#8]) = .instr i →
    step s = andThen (exec i { tailStored s with input := rest, out := [] }) (fun t => .next t.fdClear)

/-! ### The host's steps -/

/-- `hb_take()`: with `hb = 255` nothing happens; any other value is published once and the register goes back to 255, so that a
second `hb_take()` does nothing (the spec's decision D31). -/
def Obligations.HbTakePublishesOnce : Prop :=
  ∀ s : State,
    (s.hb = 0xFF#8 → hbTake s = s) ∧
    (s.hb ≠ 0xFF#8 → hbTake s = { s with hb := 0xFF#8, out := s.out ++ [.pub .heartbeat (.u8 s.hb)] }) ∧
    hbTake (hbTake s) = hbTake s

/-- `reset()`: every register of the block at the value 70 R340 lists, the cache at `CACHE_INIT`, the buffer all zero, no event (the
spec's decisions D22, D24, D25). -/
def Obligations.ResetRestoresEveryRegister : Prop :=
  ∀ (s : State) (rest : List Request), s.input = .reset :: rest → ∃ t : State, step s = .next t ∧
    t.st = .idle ∧ t.widx = 0 ∧ t.lenStage = 0 ∧ t.cnt = 0 ∧ t.dialect = .unknown ∧ t.hb = 0xFF#8 ∧
    t.cache = s.params.cacheInit ∧ (∀ a, t.buf.read a = 0x00#8) ∧ t.out = [] ∧
    t.input = rest ∧ t.params = s.params ∧ t.choices = s.choices

/-- Reset forgets the dialect, and is the only way back to `Unknown`; from `Unknown` only an output-switch reply leads away; the
`SYS_RST` frame resets nothing. -/
def Obligations.DialectReturnsToUnknownOnlyByReset : Prop :=
  (∀ (s : State) (rest : List Request), s.input = .reset :: rest → ∃ t : State, step s = .next t ∧ t.dialect = .unknown) ∧
  (∀ s t : State, step s = .next t → s.dialect ≠ .unknown → t.dialect = .unknown → ∃ rest, s.input = .reset :: rest) ∧
  (∀ s t : State, step s = .next t → s.dialect = .unknown → t.dialect ≠ .unknown → switchCompletes s) ∧
  (∀ (p : List Byte) (s : State), ∃ t : State, exec (.sysRst p) s = .next t ∧
    t.st = s.st ∧ t.dialect = s.dialect ∧ t.hb = s.hb ∧ t.cache = s.cache)

/-- `rx` and `hb_take` commute, but for the order of their events, unless the byte completes a heartbeat reply: 0x43 in `SawTail2`
with the pair (0x01, 0x01) and the right checksum in the buffer. Asked for in one cycle, the outcome is that of one of the two
orders (the spec's decision D26; the free choice: notes/assumptions/5.md). -/
def Obligations.RxAndHbTakeCommuteOrAreOrdered : Prop :=
  (∀ (b : Byte) (s : State), BlockInv s →
    ¬ (s.st = .sawTail2 ∧ b = 0x43#8 ∧ s.buf.read 2 = 0x01#8 ∧ s.buf.read 3 = 0x01#8 ∧
      checksum (snapshot (tailStored s)) = s.buf.read (6 + s.lenStage)) →
    outRel (fun t u => t = { u with out := t.out } ∧ t.out.Perm u.out)
      (andThen (rx b s) (fun s' => .next (hbTake s'))) (rx b (hbTake s))) ∧
  ∀ (b : Byte) (s c : State), c = { s with choices := s.choices + 1 } →
    serve (.rxAndTake b) s = rx b (hbTake c) ∨
    serve (.rxAndTake b) s = andThen (rx b c) (fun s' => .next (hbTake s'))

/-- The byte that completes a valid heartbeat reply with `hb = 255`: taken after `hb_take()` it leaves `hb = 1` unpublished; taken
before, the 1 is published and `hb` is 255. -/
def Obligations.HeartbeatCompletionDependsOnTheOrder : Prop :=
  ∀ s : State, BlockInv s → s.st = .sawTail2 → s.hb = 0xFF#8 → s.buf.read 2 = 0x01#8 → s.buf.read 3 = 0x01#8 →
    checksum (snapshot (tailStored s)) = s.buf.read (6 + s.lenStage) →
    (∃ t : State, rx 0x43#8 (hbTake s) = .next t ∧ t.hb = 0x01#8 ∧ t.out = s.out) ∧
    (∃ t : State, andThen (rx 0x43#8 s) (fun s' => .next (hbTake s')) = .next t ∧ t.hb = 0xFF#8 ∧
      t.out = s.out ++ [.pub .heartbeat (.u8 0x01#8)])

/-! ### The whole machine -/

/-- Every step keeps the invariant of the block: from every good state, whatever is asked next and whichever order a same-cycle
request takes, the next state is good. -/
def Obligations.EveryStepKeepsTheBlockGood : Prop :=
  ∀ s t : State, BlockInv s → step s = .next t → BlockInv t

/-- The state after reset is good. -/
def Obligations.ResetStateIsGood : Prop := BlockInv State.reset

/-- No error stops the block: from every good state every step answers a next state, for every byte and every request. -/
def Obligations.NoInputStopsTheBlock : Prop := ∀ s : State, BlockInv s → ∃ t : State, step s = .next t

/-- Delivering all bytes of a frame but the last, from `Idle`, leaves exactly the state `placeFrame` builds with the last byte the
next request: placing a frame is the transport's delivery. (`placeFrame` is the model's: notes/assumptions/3.md.) -/
def Obligations.PlacedFrameIsTheDeliveredFrame : Prop :=
  ∀ (cc ss : Byte) (p : List Byte) (rest : List Request) (s : State),
    p.length ≤ 32 → 41 ≤ s.params.bufCap → s.st = .idle →
    runFor (p.length + 8) { s with input := deliver (frame cc ss p) rest } =
      .next { placeFrame (frame cc ss p) { s with input := rest } with out := [] }

/-- Feeding `FRAME(cc, ss, p)` to a good block in `Idle`, one byte a step: after `n + 9` steps the decoder is in `Idle` again, no
earlier step put out anything, and the registers and events are those of running the ROM's answer for `(cc, ss)` with payload `p`
once. -/
def Obligations.DeliveredFrameRunsItsCommandOnce : Prop :=
  ∀ (cc ss : Byte) (p : List Byte) (rest : List Request) (s : State), p.length ≤ 32 → BlockInv s → s.st = .idle →
    (∃ t u : State,
      runRom (romLookup cc ss p) { s with input := rest, out := [] } = .next t ∧
      runFor (p.length + 9) { s with input := deliver (frame cc ss p) rest } = .next u ∧
      u.st = .idle ∧ u.widx = 0 ∧ u.lenStage = 0 ∧ u.cnt = 0 ∧ u.input = rest ∧ u.out = t.out ∧
      u.dialect = t.dialect ∧ u.hb = t.hb ∧ u.cache = t.cache ∧ u.params = s.params ∧ u.choices = s.choices) ∧
    (∀ (k : Nat) (v : State), 1 ≤ k → k < p.length + 9 →
      runFor k { s with input := deliver (frame cc ss p) rest } = .next v → v.out = [] ∧ sameRegisters v s)

/-- Noise without a 0x53 byte leaves a block in `Idle` as it was, with no event, ready for a frame. -/
def Obligations.NoiseWithoutHeaderIsDropped : Prop :=
  ∀ (noise : List Byte) (rest : List Request) (s : State), s.st = .idle → 0x53#8 ∉ noise → noise ≠ [] →
    runFor noise.length { s with input := deliver noise rest } = .next { s with input := rest, out := [] }

/-- From every good state outside `Idle`, the decoder is back in `Idle` after at most 40 further bytes, whatever they are. -/
def Obligations.DecoderReturnsToIdleWithinFortyBytes : Prop :=
  ∀ (bs : List Byte) (rest : List Request) (s : State), BlockInv s → s.st ≠ .idle → 40 ≤ bs.length →
    s.input = deliver bs rest →
    ∃ (k : Nat) (t : State), 1 ≤ k ∧ k ≤ 40 ∧ runFor k s = .next t ∧ t.st = .idle ∧ t.input = deliver (bs.drop k) rest

/-- No rule's result depends on `BUF_CAP`: from a good state, a step with another legal capacity gives the same next state but for
the capacity itself (the parameter: the spec's decision D4). -/
def Obligations.BufferCapacityIsUnobservable : Prop :=
  ∀ (s : State) (c : Nat), BlockInv s → 41 ≤ c →
    outRel (fun t u => u = { t with params := { t.params with bufCap := c } }) (step s)
      (step { s with params := { s.params with bufCap := c } })

/-- How a byte is decoded does not depend on the dialect, the heartbeat register or the cache: from states that agree on the
decoder, `rx` gives states that agree on the decoder, or the same stop. -/
def Obligations.DecodingIgnoresTheDispatcherRegisters : Prop :=
  ∀ (b : Byte) (s t : State), sameDecoder s t → outRel sameDecoder (rx b s) (rx b t)
end

