-- ==== Sys2Proof/Tests/Slice0.lean ====
section
/-! SUPPORT. The model's own tests. Every expected value comes from the spec: the worked examples of the rules and the vectors of
95_test_vectors (named V, F, H, K, S there). -/

namespace Sys2Proof.Tests

open Sys2Proof.Machine

/-- The events of the step that receives the last byte of a frame, from reset. -/
def eventsOf (bs : List Byte) : Option (List Event) :=
  match step (placeFrame bs .reset) with
  | .next t => some t.out
  | _ => none

/-- One field of the state after one request. -/
def oneStep {α : Type} (f : State → α) (r : Request) (s : State) : Option α :=
  match step { s with input := [r] } with
  | .next t => some (f t)
  | _ => none

/-- The decoder's registers, to be compared at once: `st`, `widx`, `len_stage`, `cnt`. -/
def decoderRegs (s : State) : DecState × Nat × Nat × Nat := (s.st, s.widx, s.lenStage, s.cnt)

/-- A block in the middle of a frame whose fixed bytes stand in the buffer: `n` payload bytes announced, `k` still to come. -/
def midFrame (st : DecState) (w n k : Nat) : State :=
  { State.reset with
    st := st, widx := w, lenStage := n, cnt := k
    buf := (Memory.write (Memory.write [] 0 0x53#8) 1 0x59#8).write 5 (BitVec.ofNat 8 n) }

/-! ### WellFormed refuses what no frame carries -/

/-- A payload of 33 bytes fails the one check, `payloadFits`. -/
theorem test_wellFormed_refuses_33 : (Instr.prdA1 (List.replicate 33 0x41#8)).payloadFits = false := by decide

/-- A payload of 32 bytes is accepted (boundary, V11). -/
theorem test_wellFormed_accepts_32 : (Instr.prdA1 (List.replicate 32 0x41#8)).wellFormed = true := by decide

/-! ### Decoding: a word of each row written out from its encoding (30 R100, the vectors' frames) -/

/-- V1 -/
theorem test_decode_sysHb : decode [0x53#8, 0x59#8, 0x01#8, 0x01#8, 0x00#8, 0x01#8, 0x0F#8, 0xBE#8, 0x54#8, 0x43#8] =
    .instr (.sysHb [0x0F#8]) := by decide
/-- V4 -/
theorem test_decode_sysRst : decode [0x53#8, 0x59#8, 0x01#8, 0x02#8, 0x00#8, 0x01#8, 0x0F#8, 0xBF#8, 0x54#8, 0x43#8] =
    .instr (.sysRst [0x0F#8]) := by decide
/-- V9 -/
theorem test_decode_prdA1 : decode [0x53#8, 0x59#8, 0x02#8, 0xA1#8, 0x00#8, 0x04#8, 0x52#8, 0x32#8, 0x34#8, 0x44#8, 0x4F#8, 0x54#8, 0x43#8] =
    .instr (.prdA1 [0x52#8, 0x32#8, 0x34#8, 0x44#8]) := by decide
/-- V12 -/
theorem test_decode_prdA2 : decode [0x53#8, 0x59#8, 0x02#8, 0xA2#8, 0x00#8, 0x02#8, 0x41#8, 0x42#8, 0xD5#8, 0x54#8, 0x43#8] =
    .instr (.prdA2 [0x41#8, 0x42#8]) := by decide
/-- V14 -/
theorem test_decode_prdA3 : decode [0x53#8, 0x59#8, 0x02#8, 0xA3#8, 0x00#8, 0x02#8, 0x58#8, 0x31#8, 0xDC#8, 0x54#8, 0x43#8] =
    .instr (.prdA3 [0x58#8, 0x31#8]) := by decide
/-- V16 -/
theorem test_decode_prdA4 : decode [0x53#8, 0x59#8, 0x02#8, 0xA4#8, 0x00#8, 0x03#8, 0x31#8, 0x2E#8, 0x32#8, 0xE6#8, 0x54#8, 0x43#8] =
    .instr (.prdA4 [0x31#8, 0x2E#8, 0x32#8]) := by decide
/-- V19 -/
theorem test_decode_prdProto : decode [0x53#8, 0x59#8, 0x02#8, 0xA5#8, 0x00#8, 0x01#8, 0x03#8, 0x57#8, 0x54#8, 0x43#8] =
    .instr (.prdProto [0x03#8]) := by decide
/-- V34 -/
theorem test_decode_wsScene01 : decode [0x53#8, 0x59#8, 0x05#8, 0x01#8, 0x00#8, 0x01#8, 0x04#8, 0xB7#8, 0x54#8, 0x43#8] =
    .instr (.wsScene01 [0x04#8]) := by decide
/-- V41 -/
theorem test_decode_wsScene07 : decode [0x53#8, 0x59#8, 0x05#8, 0x07#8, 0x00#8, 0x01#8, 0x01#8, 0xBA#8, 0x54#8, 0x43#8] =
    .instr (.wsScene07 [0x01#8]) := by decide
/-- V51 -/
theorem test_decode_wsScene87 : decode [0x53#8, 0x59#8, 0x05#8, 0x87#8, 0x00#8, 0x01#8, 0x01#8, 0x3A#8, 0x54#8, 0x43#8] =
    .instr (.wsScene87 [0x01#8]) := by decide
/-- V61 -/
theorem test_decode_wsSens08 : decode [0x53#8, 0x59#8, 0x05#8, 0x08#8, 0x00#8, 0x01#8, 0x01#8, 0xBB#8, 0x54#8, 0x43#8] =
    .instr (.wsSens08 [0x01#8]) := by decide
/-- V68 -/
theorem test_decode_wsSens88 : decode [0x53#8, 0x59#8, 0x05#8, 0x88#8, 0x00#8, 0x01#8, 0x01#8, 0x3B#8, 0x54#8, 0x43#8] =
    .instr (.wsSens88 [0x01#8]) := by decide
/-- V75 -/
theorem test_decode_wsInit81 : decode [0x53#8, 0x59#8, 0x05#8, 0x81#8, 0x00#8, 0x01#8, 0x01#8, 0x34#8, 0x54#8, 0x43#8] =
    .instr (.wsInit81 [0x01#8]) := by decide
/-- V92 -/
theorem test_decode_drMov01 : decode [0x53#8, 0x59#8, 0x07#8, 0x01#8, 0x00#8, 0x02#8, 0x01#8, 0x2C#8, 0xE3#8, 0x54#8, 0x43#8] =
    .instr (.drMov01 [0x01#8, 0x2C#8]) := by decide
/-- V102 -/
theorem test_decode_drMov81 : decode [0x53#8, 0x59#8, 0x07#8, 0x81#8, 0x00#8, 0x02#8, 0x01#8, 0x2C#8, 0x63#8, 0x54#8, 0x43#8] =
    .instr (.drMov81 [0x01#8, 0x2C#8]) := by decide
/-- V112 -/
theorem test_decode_drSta04 : decode [0x53#8, 0x59#8, 0x07#8, 0x04#8, 0x00#8, 0x02#8, 0x01#8, 0x2C#8, 0xE6#8, 0x54#8, 0x43#8] =
    .instr (.drSta04 [0x01#8, 0x2C#8]) := by decide
/-- V122 -/
theorem test_decode_drSta84 : decode [0x53#8, 0x59#8, 0x07#8, 0x84#8, 0x00#8, 0x02#8, 0x01#8, 0x2C#8, 0x66#8, 0x54#8, 0x43#8] =
    .instr (.drSta84 [0x01#8, 0x2C#8]) := by decide
/-- V136 -/
theorem test_decode_oiSw00 : decode [0x53#8, 0x59#8, 0x08#8, 0x00#8, 0x00#8, 0x01#8, 0x01#8, 0xB6#8, 0x54#8, 0x43#8] =
    .instr (.oiSw00 [0x01#8]) := by decide
/-- V143 -/
theorem test_decode_oiSw80 : decode [0x53#8, 0x59#8, 0x08#8, 0x80#8, 0x00#8, 0x01#8, 0x01#8, 0x36#8, 0x54#8, 0x43#8] =
    .instr (.oiSw80 [0x01#8]) := by decide
/-- V149 -/
theorem test_decode_oiBurst01 : decode [0x53#8, 0x59#8, 0x08#8, 0x01#8, 0x00#8, 0x05#8, 0x20#8, 0x04#8, 0x30#8, 0x06#8, 0x0C#8, 0x20#8, 0x54#8, 0x43#8] =
    .instr (.oiBurst01 [0x20#8, 0x04#8, 0x30#8, 0x06#8, 0x0C#8]) := by decide
/-- V163 -/
theorem test_decode_oiAppr06 : decode [0x53#8, 0x59#8, 0x08#8, 0x06#8, 0x00#8, 0x01#8, 0x01#8, 0xBC#8, 0x54#8, 0x43#8] =
    .instr (.oiAppr06 [0x01#8]) := by decide
/-- V168 -/
theorem test_decode_oiAmpl07 : decode [0x53#8, 0x59#8, 0x08#8, 0x07#8, 0x00#8, 0x01#8, 0x32#8, 0xEE#8, 0x54#8, 0x43#8] =
    .instr (.oiAmpl07 [0x32#8]) := by decide
/-- V173 -/
theorem test_decode_oiAmpl87 : decode [0x53#8, 0x59#8, 0x08#8, 0x87#8, 0x00#8, 0x01#8, 0x64#8, 0xA0#8, 0x54#8, 0x43#8] =
    .instr (.oiAmpl87 [0x64#8]) := by decide
/-- V177 -/
theorem test_decode_oiJth08 : decode [0x53#8, 0x59#8, 0x08#8, 0x08#8, 0x00#8, 0x01#8, 0x05#8, 0xC2#8, 0x54#8, 0x43#8] =
    .instr (.oiJth08 [0x05#8]) := by decide
/-- V181 -/
theorem test_decode_oiJth88 : decode [0x53#8, 0x59#8, 0x08#8, 0x88#8, 0x00#8, 0x01#8, 0x05#8, 0x42#8, 0x54#8, 0x43#8] =
    .instr (.oiJth88 [0x05#8]) := by decide
/-- V185 -/
theorem test_decode_oiAth09 : decode [0x53#8, 0x59#8, 0x08#8, 0x09#8, 0x00#8, 0x01#8, 0x05#8, 0xC3#8, 0x54#8, 0x43#8] =
    .instr (.oiAth09 [0x05#8]) := by decide
/-- V189 -/
theorem test_decode_oiAth89 : decode [0x53#8, 0x59#8, 0x08#8, 0x89#8, 0x00#8, 0x01#8, 0x05#8, 0x43#8, 0x54#8, 0x43#8] =
    .instr (.oiAth89 [0x05#8]) := by decide
/-- V193 -/
theorem test_decode_oiPbd0A : decode [0x53#8, 0x59#8, 0x08#8, 0x0A#8, 0x00#8, 0x01#8, 0x01#8, 0xC0#8, 0x54#8, 0x43#8] =
    .instr (.oiPbd0A [0x01#8]) := by decide
/-- V200 -/
theorem test_decode_oiPbd8A : decode [0x53#8, 0x59#8, 0x08#8, 0x8A#8, 0x00#8, 0x01#8, 0x01#8, 0x40#8, 0x54#8, 0x43#8] =
    .instr (.oiPbd8A [0x01#8]) := by decide
/-- V207 -/
theorem test_decode_oiTbd0B : decode [0x53#8, 0x59#8, 0x08#8, 0x0B#8, 0x00#8, 0x01#8, 0x01#8, 0xC1#8, 0x54#8, 0x43#8] =
    .instr (.oiTbd0B [0x01#8]) := by decide
/-- V214 -/
theorem test_decode_oiTbd8B : decode [0x53#8, 0x59#8, 0x08#8, 0x8B#8, 0x00#8, 0x01#8, 0x01#8, 0x41#8, 0x54#8, 0x43#8] =
    .instr (.oiTbd8B [0x01#8]) := by decide
/-- V224 -/
theorem test_decode_oiTtrig0C : decode [0x53#8, 0x59#8, 0x08#8, 0x0C#8, 0x00#8, 0x04#8, 0x12#8, 0x34#8, 0x56#8, 0x78#8, 0xD8#8, 0x54#8, 0x43#8] =
    .instr (.oiTtrig0C [0x12#8, 0x34#8, 0x56#8, 0x78#8]) := by decide
/-- V233 -/
theorem test_decode_oiTtrig8C : decode [0x53#8, 0x59#8, 0x08#8, 0x8C#8, 0x00#8, 0x04#8, 0x12#8, 0x34#8, 0x56#8, 0x78#8, 0x58#8, 0x54#8, 0x43#8] =
    .instr (.oiTtrig8C [0x12#8, 0x34#8, 0x56#8, 0x78#8]) := by decide
/-- V242 -/
theorem test_decode_oiTrest0D : decode [0x53#8, 0x59#8, 0x08#8, 0x0D#8, 0x00#8, 0x04#8, 0x12#8, 0x34#8, 0x56#8, 0x78#8, 0xD9#8, 0x54#8, 0x43#8] =
    .instr (.oiTrest0D [0x12#8, 0x34#8, 0x56#8, 0x78#8]) := by decide
/-- V251 -/
theorem test_decode_oiTrest8D : decode [0x53#8, 0x59#8, 0x08#8, 0x8D#8, 0x00#8, 0x04#8, 0x12#8, 0x34#8, 0x56#8, 0x78#8, 0x59#8, 0x54#8, 0x43#8] =
    .instr (.oiTrest8D [0x12#8, 0x34#8, 0x56#8, 0x78#8]) := by decide
/-- V260 -/
theorem test_decode_oiTunm0E : decode [0x53#8, 0x59#8, 0x08#8, 0x0E#8, 0x00#8, 0x04#8, 0x12#8, 0x34#8, 0x56#8, 0x78#8, 0xDA#8, 0x54#8, 0x43#8] =
    .instr (.oiTunm0E [0x12#8, 0x34#8, 0x56#8, 0x78#8]) := by decide
/-- V269 -/
theorem test_decode_oiTunm8E : decode [0x53#8, 0x59#8, 0x08#8, 0x8E#8, 0x00#8, 0x04#8, 0x12#8, 0x34#8, 0x56#8, 0x78#8, 0x5A#8, 0x54#8, 0x43#8] =
    .instr (.oiTunm8E [0x12#8, 0x34#8, 0x56#8, 0x78#8]) := by decide
/-- V278 -/
theorem test_decode_oiPdist83 : decode [0x53#8, 0x59#8, 0x08#8, 0x83#8, 0x00#8, 0x01#8, 0x01#8, 0x39#8, 0x54#8, 0x43#8] =
    .instr (.oiPdist83 [0x01#8]) := by decide
/-- V297 -/
theorem test_decode_huPres01 : decode [0x53#8, 0x59#8, 0x80#8, 0x01#8, 0x00#8, 0x01#8, 0x01#8, 0x2F#8, 0x54#8, 0x43#8] =
    .instr (.huPres01 [0x01#8]) := by decide
/-- V302 -/
theorem test_decode_huPres81 : decode [0x53#8, 0x59#8, 0x80#8, 0x81#8, 0x00#8, 0x01#8, 0x01#8, 0xAF#8, 0x54#8, 0x43#8] =
    .instr (.huPres81 [0x01#8]) := by decide
/-- V309 -/
theorem test_decode_huMot02 : decode [0x53#8, 0x59#8, 0x80#8, 0x02#8, 0x00#8, 0x01#8, 0x01#8, 0x30#8, 0x54#8, 0x43#8] =
    .instr (.huMot02 [0x01#8]) := by decide
/-- V315 -/
theorem test_decode_huMot82 : decode [0x53#8, 0x59#8, 0x80#8, 0x82#8, 0x00#8, 0x01#8, 0x01#8, 0xB0#8, 0x54#8, 0x43#8] =
    .instr (.huMot82 [0x01#8]) := by decide
/-- V320 -/
theorem test_decode_huAmpl03 : decode [0x53#8, 0x59#8, 0x80#8, 0x03#8, 0x00#8, 0x01#8, 0x32#8, 0x62#8, 0x54#8, 0x43#8] =
    .instr (.huAmpl03 [0x32#8]) := by decide
/-- V327 -/
theorem test_decode_huAmpl83 : decode [0x53#8, 0x59#8, 0x80#8, 0x83#8, 0x00#8, 0x01#8, 0x50#8, 0x00#8, 0x54#8, 0x43#8] =
    .instr (.huAmpl83 [0x50#8]) := by decide
/-- V332 -/
theorem test_decode_huUnm0A : decode [0x53#8, 0x59#8, 0x80#8, 0x0A#8, 0x00#8, 0x01#8, 0x01#8, 0x38#8, 0x54#8, 0x43#8] =
    .instr (.huUnm0A [0x01#8]) := by decide
/-- V338 -/
theorem test_decode_huUnm8A : decode [0x53#8, 0x59#8, 0x80#8, 0x8A#8, 0x00#8, 0x01#8, 0x01#8, 0xB8#8, 0x54#8, 0x43#8] =
    .instr (.huUnm8A [0x01#8]) := by decide
/-- V344 -/
theorem test_decode_huAppr0B : decode [0x53#8, 0x59#8, 0x80#8, 0x0B#8, 0x00#8, 0x01#8, 0x01#8, 0x39#8, 0x54#8, 0x43#8] =
    .instr (.huAppr0B [0x01#8]) := by decide
/-- V350 -/
theorem test_decode_huAppr8B : decode [0x53#8, 0x59#8, 0x80#8, 0x8B#8, 0x00#8, 0x01#8, 0x01#8, 0xB9#8, 0x54#8, 0x43#8] =
    .instr (.huAppr8B [0x01#8]) := by decide

/-! ### Each command's events on the step of its last byte -/

/-- V1 -/
theorem test_events_sysHb : eventsOf [0x53#8, 0x59#8, 0x01#8, 0x01#8, 0x00#8, 0x01#8, 0x0F#8, 0xBE#8, 0x54#8, 0x43#8] =
    some [] := by decide
/-- V4 -/
theorem test_events_sysRst : eventsOf [0x53#8, 0x59#8, 0x01#8, 0x02#8, 0x00#8, 0x01#8, 0x0F#8, 0xBF#8, 0x54#8, 0x43#8] =
    some [.log .resetReply] := by decide
/-- V9 -/
theorem test_events_prdA1 : eventsOf [0x53#8, 0x59#8, 0x02#8, 0xA1#8, 0x00#8, 0x04#8, 0x52#8, 0x32#8, 0x34#8, 0x44#8, 0x4F#8, 0x54#8, 0x43#8] =
    some [.pub .productA1 (.bytes [0x52#8, 0x32#8, 0x34#8, 0x44#8])] := by decide
/-- V12 -/
theorem test_events_prdA2 : eventsOf [0x53#8, 0x59#8, 0x02#8, 0xA2#8, 0x00#8, 0x02#8, 0x41#8, 0x42#8, 0xD5#8, 0x54#8, 0x43#8] =
    some [.pub .productA2 (.bytes [0x41#8, 0x42#8])] := by decide
/-- V14 -/
theorem test_events_prdA3 : eventsOf [0x53#8, 0x59#8, 0x02#8, 0xA3#8, 0x00#8, 0x02#8, 0x58#8, 0x31#8, 0xDC#8, 0x54#8, 0x43#8] =
    some [.pub .productA3 (.bytes [0x58#8, 0x31#8])] := by decide
/-- V16 -/
theorem test_events_prdA4 : eventsOf [0x53#8, 0x59#8, 0x02#8, 0xA4#8, 0x00#8, 0x03#8, 0x31#8, 0x2E#8, 0x32#8, 0xE6#8, 0x54#8, 0x43#8] =
    some [.pub .productA4 (.bytes [0x31#8, 0x2E#8, 0x32#8])] := by decide
/-- V19 -/
theorem test_events_prdProto : eventsOf [0x53#8, 0x59#8, 0x02#8, 0xA5#8, 0x00#8, 0x01#8, 0x03#8, 0x57#8, 0x54#8, 0x43#8] =
    some [.pub .protocolType (.protocol .tuyaWifi)] := by decide
/-- V34 -/
theorem test_events_wsScene01 : eventsOf [0x53#8, 0x59#8, 0x05#8, 0x01#8, 0x00#8, 0x01#8, 0x04#8, 0xB7#8, 0x54#8, 0x43#8] =
    some [.pub .sceneMode (.idx 4#8)] := by decide
/-- V41 -/
theorem test_events_wsScene07 : eventsOf [0x53#8, 0x59#8, 0x05#8, 0x07#8, 0x00#8, 0x01#8, 0x01#8, 0xBA#8, 0x54#8, 0x43#8] =
    some [.pub .sceneMode (.idx 1#8)] := by decide
/-- V51 -/
theorem test_events_wsScene87 : eventsOf [0x53#8, 0x59#8, 0x05#8, 0x87#8, 0x00#8, 0x01#8, 0x01#8, 0x3A#8, 0x54#8, 0x43#8] =
    some [.pub .sceneMode (.idx 1#8)] := by decide
/-- V61 -/
theorem test_events_wsSens08 : eventsOf [0x53#8, 0x59#8, 0x05#8, 0x08#8, 0x00#8, 0x01#8, 0x01#8, 0xBB#8, 0x54#8, 0x43#8] =
    some [.pub .sensitivity (.u8 1#8)] := by decide
/-- V68 -/
theorem test_events_wsSens88 : eventsOf [0x53#8, 0x59#8, 0x05#8, 0x88#8, 0x00#8, 0x01#8, 0x01#8, 0x3B#8, 0x54#8, 0x43#8] =
    some [.pub .sensitivity (.u8 1#8)] := by decide
/-- V75 -/
theorem test_events_wsInit81 : eventsOf [0x53#8, 0x59#8, 0x05#8, 0x81#8, 0x00#8, 0x01#8, 0x01#8, 0x34#8, 0x54#8, 0x43#8] =
    some [.pub .initComplete (.bool true)] := by decide
/-- V92 -/
theorem test_events_drMov01 : eventsOf [0x53#8, 0x59#8, 0x07#8, 0x01#8, 0x00#8, 0x02#8, 0x01#8, 0x2C#8, 0xE3#8, 0x54#8, 0x43#8] =
    some [.pub .movingMaxDist (.u16 300#16)] := by decide
/-- V102 -/
theorem test_events_drMov81 : eventsOf [0x53#8, 0x59#8, 0x07#8, 0x81#8, 0x00#8, 0x02#8, 0x01#8, 0x2C#8, 0x63#8, 0x54#8, 0x43#8] =
    some [.pub .movingMaxDist (.u16 300#16)] := by decide
/-- V112 -/
theorem test_events_drSta04 : eventsOf [0x53#8, 0x59#8, 0x07#8, 0x04#8, 0x00#8, 0x02#8, 0x01#8, 0x2C#8, 0xE6#8, 0x54#8, 0x43#8] =
    some [.pub .staticMaxDist (.u16 300#16)] := by decide
/-- V122 -/
theorem test_events_drSta84 : eventsOf [0x53#8, 0x59#8, 0x07#8, 0x84#8, 0x00#8, 0x02#8, 0x01#8, 0x2C#8, 0x66#8, 0x54#8, 0x43#8] =
    some [.pub .staticMaxDist (.u16 300#16)] := by decide
/-- V136 -/
theorem test_events_oiSw00 : eventsOf [0x53#8, 0x59#8, 0x08#8, 0x00#8, 0x00#8, 0x01#8, 0x01#8, 0xB6#8, 0x54#8, 0x43#8] =
    some [.pub .outputSwitch (.bool true)] := by decide
/-- V143 -/
theorem test_events_oiSw80 : eventsOf [0x53#8, 0x59#8, 0x08#8, 0x80#8, 0x00#8, 0x01#8, 0x01#8, 0x36#8, 0x54#8, 0x43#8] =
    some [.pub .outputSwitch (.bool true)] := by decide
/-- V149 -/
theorem test_events_oiBurst01 : eventsOf [0x53#8, 0x59#8, 0x08#8, 0x01#8, 0x00#8, 0x05#8, 0x20#8, 0x04#8, 0x30#8, 0x06#8, 0x0C#8, 0x20#8, 0x54#8, 0x43#8] =
    some [.pub .spatialStatic (.u8 32#8), .pub .staticDist (.half8 4#8), .pub .spatialMotion (.u8 48#8), .pub .motionDist (.half8 6#8), .pub .motionSpeed (.shalf (BitVec.ofInt 9 (2)))] := by decide
/-- V163 -/
theorem test_events_oiAppr06 : eventsOf [0x53#8, 0x59#8, 0x08#8, 0x06#8, 0x00#8, 0x01#8, 0x01#8, 0xBC#8, 0x54#8, 0x43#8] =
    some [.pub .approach (.idx 1#8)] := by decide
/-- V168 -/
theorem test_events_oiAmpl07 : eventsOf [0x53#8, 0x59#8, 0x08#8, 0x07#8, 0x00#8, 0x01#8, 0x32#8, 0xEE#8, 0x54#8, 0x43#8] =
    some [.pub .moveAmpl (.u8 50#8)] := by decide
/-- V173 -/
theorem test_events_oiAmpl87 : eventsOf [0x53#8, 0x59#8, 0x08#8, 0x87#8, 0x00#8, 0x01#8, 0x64#8, 0xA0#8, 0x54#8, 0x43#8] =
    some [.pub .moveAmpl (.u8 100#8)] := by decide
/-- V177 -/
theorem test_events_oiJth08 : eventsOf [0x53#8, 0x59#8, 0x08#8, 0x08#8, 0x00#8, 0x01#8, 0x05#8, 0xC2#8, 0x54#8, 0x43#8] =
    some [.pub .judgeThresh (.u8 5#8)] := by decide
/-- V181 -/
theorem test_events_oiJth88 : eventsOf [0x53#8, 0x59#8, 0x08#8, 0x88#8, 0x00#8, 0x01#8, 0x05#8, 0x42#8, 0x54#8, 0x43#8] =
    some [.pub .judgeThresh (.u8 5#8)] := by decide
/-- V185 -/
theorem test_events_oiAth09 : eventsOf [0x53#8, 0x59#8, 0x08#8, 0x09#8, 0x00#8, 0x01#8, 0x05#8, 0xC3#8, 0x54#8, 0x43#8] =
    some [.pub .amplTrigThresh (.u8 5#8)] := by decide
/-- V189 -/
theorem test_events_oiAth89 : eventsOf [0x53#8, 0x59#8, 0x08#8, 0x89#8, 0x00#8, 0x01#8, 0x05#8, 0x43#8, 0x54#8, 0x43#8] =
    some [.pub .amplTrigThresh (.u8 5#8)] := by decide
/-- V193 -/
theorem test_events_oiPbd0A : eventsOf [0x53#8, 0x59#8, 0x08#8, 0x0A#8, 0x00#8, 0x01#8, 0x01#8, 0xC0#8, 0x54#8, 0x43#8] =
    some [.pub .perceptionBoundary (.idx 1#8)] := by decide
/-- V200 -/
theorem test_events_oiPbd8A : eventsOf [0x53#8, 0x59#8, 0x08#8, 0x8A#8, 0x00#8, 0x01#8, 0x01#8, 0x40#8, 0x54#8, 0x43#8] =
    some [.pub .perceptionBoundary (.idx 1#8)] := by decide
/-- V207 -/
theorem test_events_oiTbd0B : eventsOf [0x53#8, 0x59#8, 0x08#8, 0x0B#8, 0x00#8, 0x01#8, 0x01#8, 0xC1#8, 0x54#8, 0x43#8] =
    some [.pub .triggerBoundary (.idx 1#8)] := by decide
/-- V214 -/
theorem test_events_oiTbd8B : eventsOf [0x53#8, 0x59#8, 0x08#8, 0x8B#8, 0x00#8, 0x01#8, 0x01#8, 0x41#8, 0x54#8, 0x43#8] =
    some [.pub .triggerBoundary (.idx 1#8)] := by decide
/-- V224 -/
theorem test_events_oiTtrig0C : eventsOf [0x53#8, 0x59#8, 0x08#8, 0x0C#8, 0x00#8, 0x04#8, 0x12#8, 0x34#8, 0x56#8, 0x78#8, 0xD8#8, 0x54#8, 0x43#8] =
    some [.pub .triggerTime (.u32 305419896#32)] := by decide
/-- V233 -/
theorem test_events_oiTtrig8C : eventsOf [0x53#8, 0x59#8, 0x08#8, 0x8C#8, 0x00#8, 0x04#8, 0x12#8, 0x34#8, 0x56#8, 0x78#8, 0x58#8, 0x54#8, 0x43#8] =
    some [.pub .triggerTime (.u32 305419896#32)] := by decide
/-- V242 -/
theorem test_events_oiTrest0D : eventsOf [0x53#8, 0x59#8, 0x08#8, 0x0D#8, 0x00#8, 0x04#8, 0x12#8, 0x34#8, 0x56#8, 0x78#8, 0xD9#8, 0x54#8, 0x43#8] =
    some [.pub .restTime (.u32 305419896#32)] := by decide
/-- V251 -/
theorem test_events_oiTrest8D : eventsOf [0x53#8, 0x59#8, 0x08#8, 0x8D#8, 0x00#8, 0x04#8, 0x12#8, 0x34#8, 0x56#8, 0x78#8, 0x59#8, 0x54#8, 0x43#8] =
    some [.pub .restTime (.u32 305419896#32)] := by decide
/-- V260 -/
theorem test_events_oiTunm0E : eventsOf [0x53#8, 0x59#8, 0x08#8, 0x0E#8, 0x00#8, 0x04#8, 0x12#8, 0x34#8, 0x56#8, 0x78#8, 0xDA#8, 0x54#8, 0x43#8] =
    some [.pub .unmannedTime (.u32 305419896#32)] := by decide
/-- V269 -/
theorem test_events_oiTunm8E : eventsOf [0x53#8, 0x59#8, 0x08#8, 0x8E#8, 0x00#8, 0x04#8, 0x12#8, 0x34#8, 0x56#8, 0x78#8, 0x5A#8, 0x54#8, 0x43#8] =
    some [.pub .unmannedTime (.u32 305419896#32)] := by decide
/-- V278 -/
theorem test_events_oiPdist83 : eventsOf [0x53#8, 0x59#8, 0x08#8, 0x83#8, 0x00#8, 0x01#8, 0x01#8, 0x39#8, 0x54#8, 0x43#8] =
    some [.pub .presenceDist (.idx 1#8)] := by decide
/-- V297 -/
theorem test_events_huPres01 : eventsOf [0x53#8, 0x59#8, 0x80#8, 0x01#8, 0x00#8, 0x01#8, 0x01#8, 0x2F#8, 0x54#8, 0x43#8] =
    some [.pub .presence (.bool true)] := by decide
/-- V302 -/
theorem test_events_huPres81 : eventsOf [0x53#8, 0x59#8, 0x80#8, 0x81#8, 0x00#8, 0x01#8, 0x01#8, 0xAF#8, 0x54#8, 0x43#8] =
    some [.pub .presence (.bool true)] := by decide
/-- V309 -/
theorem test_events_huMot02 : eventsOf [0x53#8, 0x59#8, 0x80#8, 0x02#8, 0x00#8, 0x01#8, 0x01#8, 0x30#8, 0x54#8, 0x43#8] =
    some [.pub .motionState (.idx 1#8)] := by decide
/-- V315 -/
theorem test_events_huMot82 : eventsOf [0x53#8, 0x59#8, 0x80#8, 0x82#8, 0x00#8, 0x01#8, 0x01#8, 0xB0#8, 0x54#8, 0x43#8] =
    some [.pub .motionState (.idx 1#8)] := by decide
/-- V320 -/
theorem test_events_huAmpl03 : eventsOf [0x53#8, 0x59#8, 0x80#8, 0x03#8, 0x00#8, 0x01#8, 0x32#8, 0x62#8, 0x54#8, 0x43#8] =
    some [.pub .moveAmpl (.u8 50#8)] := by decide
/-- V327 -/
theorem test_events_huAmpl83 : eventsOf [0x53#8, 0x59#8, 0x80#8, 0x83#8, 0x00#8, 0x01#8, 0x50#8, 0x00#8, 0x54#8, 0x43#8] =
    some [.pub .moveAmpl (.u8 80#8)] := by decide
/-- V332 -/
theorem test_events_huUnm0A : eventsOf [0x53#8, 0x59#8, 0x80#8, 0x0A#8, 0x00#8, 0x01#8, 0x01#8, 0x38#8, 0x54#8, 0x43#8] =
    some [.pub .unmannedDuration (.idx 1#8)] := by decide
/-- V338 -/
theorem test_events_huUnm8A : eventsOf [0x53#8, 0x59#8, 0x80#8, 0x8A#8, 0x00#8, 0x01#8, 0x01#8, 0xB8#8, 0x54#8, 0x43#8] =
    some [.pub .unmannedDuration (.idx 1#8)] := by decide
/-- V344 -/
theorem test_events_huAppr0B : eventsOf [0x53#8, 0x59#8, 0x80#8, 0x0B#8, 0x00#8, 0x01#8, 0x01#8, 0x39#8, 0x54#8, 0x43#8] =
    some [.pub .approach (.idx 1#8)] := by decide
/-- V350 -/
theorem test_events_huAppr8B : eventsOf [0x53#8, 0x59#8, 0x80#8, 0x8B#8, 0x00#8, 0x01#8, 0x01#8, 0xB9#8, 0x54#8, 0x43#8] =
    some [.pub .approach (.idx 1#8)] := by decide

/-! ### Errors of the dispatcher, at their boundaries -/

/-- V30 -/
theorem test_error_V30 : eventsOf [0x53#8, 0x59#8, 0x05#8, 0x01#8, 0x00#8, 0x01#8, 0x00#8, 0xB3#8, 0x54#8, 0x43#8] =
    some [.err (.range 0x05#8 0x01#8 0x00#8)] := by decide
/-- V35 -/
theorem test_error_V35 : eventsOf [0x53#8, 0x59#8, 0x05#8, 0x01#8, 0x00#8, 0x01#8, 0x05#8, 0xB8#8, 0x54#8, 0x43#8] =
    some [.err (.range 0x05#8 0x01#8 0x05#8)] := by decide
/-- V45 -/
theorem test_error_V45 : eventsOf [0x53#8, 0x59#8, 0x05#8, 0x07#8, 0x00#8, 0x01#8, 0x05#8, 0xBE#8, 0x54#8, 0x43#8] =
    some [.err (.range 0x05#8 0x07#8 0x05#8)] := by decide
/-- V55 -/
theorem test_error_V55 : eventsOf [0x53#8, 0x59#8, 0x05#8, 0x87#8, 0x00#8, 0x01#8, 0x05#8, 0x3E#8, 0x54#8, 0x43#8] =
    some [.err (.range 0x05#8 0x87#8 0x05#8)] := by decide
/-- V165 -/
theorem test_error_V165 : eventsOf [0x53#8, 0x59#8, 0x08#8, 0x06#8, 0x00#8, 0x01#8, 0x03#8, 0xBE#8, 0x54#8, 0x43#8] =
    some [.err (.range 0x08#8 0x06#8 0x03#8)] := by decide
/-- V197 -/
theorem test_error_V197 : eventsOf [0x53#8, 0x59#8, 0x08#8, 0x0A#8, 0x00#8, 0x01#8, 0xFF#8, 0xBE#8, 0x54#8, 0x43#8] =
    some [.err (.range 0x08#8 0x0A#8 0xFF#8)] := by decide
/-- V203 -/
theorem test_error_V203 : eventsOf [0x53#8, 0x59#8, 0x08#8, 0x8A#8, 0x00#8, 0x01#8, 0x0B#8, 0x4A#8, 0x54#8, 0x43#8] =
    some [.err (.range 0x08#8 0x8A#8 0x0B#8)] := by decide
/-- V210 -/
theorem test_error_V210 : eventsOf [0x53#8, 0x59#8, 0x08#8, 0x0B#8, 0x00#8, 0x01#8, 0x0B#8, 0xCB#8, 0x54#8, 0x43#8] =
    some [.err (.range 0x08#8 0x0B#8 0x0B#8)] := by decide
/-- V217 -/
theorem test_error_V217 : eventsOf [0x53#8, 0x59#8, 0x08#8, 0x8B#8, 0x00#8, 0x01#8, 0x0B#8, 0x4B#8, 0x54#8, 0x43#8] =
    some [.err (.range 0x08#8 0x8B#8 0x0B#8)] := by decide
/-- V280 -/
theorem test_error_V280 : eventsOf [0x53#8, 0x59#8, 0x08#8, 0x83#8, 0x00#8, 0x01#8, 0x07#8, 0x3F#8, 0x54#8, 0x43#8] =
    some [.err (.range 0x08#8 0x83#8 0x07#8)] := by decide
/-- V311 -/
theorem test_error_V311 : eventsOf [0x53#8, 0x59#8, 0x80#8, 0x02#8, 0x00#8, 0x01#8, 0x03#8, 0x32#8, 0x54#8, 0x43#8] =
    some [.err (.range 0x80#8 0x02#8 0x03#8)] := by decide
/-- V317 -/
theorem test_error_V317 : eventsOf [0x53#8, 0x59#8, 0x80#8, 0x82#8, 0x00#8, 0x01#8, 0x03#8, 0xB2#8, 0x54#8, 0x43#8] =
    some [.err (.range 0x80#8 0x82#8 0x03#8)] := by decide
/-- V334 -/
theorem test_error_V334 : eventsOf [0x53#8, 0x59#8, 0x80#8, 0x0A#8, 0x00#8, 0x01#8, 0x09#8, 0x40#8, 0x54#8, 0x43#8] =
    some [.err (.range 0x80#8 0x0A#8 0x09#8)] := by decide
/-- V341 -/
theorem test_error_V341 : eventsOf [0x53#8, 0x59#8, 0x80#8, 0x8A#8, 0x00#8, 0x01#8, 0xFF#8, 0xB6#8, 0x54#8, 0x43#8] =
    some [.err (.range 0x80#8 0x8A#8 0xFF#8)] := by decide
/-- V346 -/
theorem test_error_V346 : eventsOf [0x53#8, 0x59#8, 0x80#8, 0x0B#8, 0x00#8, 0x01#8, 0x03#8, 0x3B#8, 0x54#8, 0x43#8] =
    some [.err (.range 0x80#8 0x0B#8 0x03#8)] := by decide
/-- V352 -/
theorem test_error_V352 : eventsOf [0x53#8, 0x59#8, 0x80#8, 0x8B#8, 0x00#8, 0x01#8, 0x03#8, 0xBB#8, 0x54#8, 0x43#8] =
    some [.err (.range 0x80#8 0x8B#8 0x03#8)] := by decide
/-- V24 -/
theorem test_error_V24 : eventsOf [0x53#8, 0x59#8, 0x02#8, 0xA5#8, 0x00#8, 0x00#8, 0x53#8, 0x54#8, 0x43#8] =
    some [.err (.short 0x02#8 0xA5#8 1 0)] := by decide
/-- V38 -/
theorem test_error_V38 : eventsOf [0x53#8, 0x59#8, 0x05#8, 0x01#8, 0x00#8, 0x00#8, 0xB2#8, 0x54#8, 0x43#8] =
    some [.err (.short 0x05#8 0x01#8 1 0)] := by decide
/-- V95 -/
theorem test_error_V95 : eventsOf [0x53#8, 0x59#8, 0x07#8, 0x01#8, 0x00#8, 0x01#8, 0x05#8, 0xBA#8, 0x54#8, 0x43#8] =
    some [.err (.short 0x07#8 0x01#8 2 1)] := by decide
/-- V140 -/
theorem test_error_V140 : eventsOf [0x53#8, 0x59#8, 0x08#8, 0x00#8, 0x00#8, 0x00#8, 0xB4#8, 0x54#8, 0x43#8] =
    some [.err (.short 0x08#8 0x00#8 1 0)] := by decide
/-- V226 -/
theorem test_error_V226 : eventsOf [0x53#8, 0x59#8, 0x08#8, 0x0C#8, 0x00#8, 0x03#8, 0x00#8, 0x00#8, 0x05#8, 0xC8#8, 0x54#8, 0x43#8] =
    some [.err (.short 0x08#8 0x0C#8 4 3)] := by decide
/-- V237 -/
theorem test_error_V237 : eventsOf [0x53#8, 0x59#8, 0x08#8, 0x8C#8, 0x00#8, 0x00#8, 0x40#8, 0x54#8, 0x43#8] =
    some [.err (.short 0x08#8 0x8C#8 4 0)] := by decide
/-- V330 -/
theorem test_error_V330 : eventsOf [0x53#8, 0x59#8, 0x80#8, 0x03#8, 0x00#8, 0x00#8, 0x2F#8, 0x54#8, 0x43#8] =
    some [.err (.short 0x80#8 0x03#8 1 0)] := by decide
/-- V6 -/
theorem test_error_V6 : eventsOf [0x53#8, 0x59#8, 0x01#8, 0x03#8, 0x00#8, 0x01#8, 0x0F#8, 0xC0#8, 0x54#8, 0x43#8] =
    some [.err (.unkCmd 0x01#8 0x03#8)] := by decide
/-- V26 -/
theorem test_error_V26 : eventsOf [0x53#8, 0x59#8, 0x02#8, 0xA0#8, 0x00#8, 0x01#8, 0x01#8, 0x50#8, 0x54#8, 0x43#8] =
    some [.err (.unkCmd 0x02#8 0xA0#8)] := by decide
/-- V80 -/
theorem test_error_V80 : eventsOf [0x53#8, 0x59#8, 0x05#8, 0x00#8, 0x00#8, 0x01#8, 0x01#8, 0xB3#8, 0x54#8, 0x43#8] =
    some [.err (.unkCmd 0x05#8 0x00#8)] := by decide
/-- V129 -/
theorem test_error_V129 : eventsOf [0x53#8, 0x59#8, 0x07#8, 0x02#8, 0x00#8, 0x02#8, 0x00#8, 0x00#8, 0xB7#8, 0x54#8, 0x43#8] =
    some [.err (.unkCmd 0x07#8 0x02#8)] := by decide
/-- V289 -/
theorem test_error_V289 : eventsOf [0x53#8, 0x59#8, 0x08#8, 0x81#8, 0x00#8, 0x01#8, 0x00#8, 0x36#8, 0x54#8, 0x43#8] =
    some [.err (.unkCmd 0x08#8 0x81#8)] := by decide
/-- V355 -/
theorem test_error_V355 : eventsOf [0x53#8, 0x59#8, 0x80#8, 0x00#8, 0x00#8, 0x01#8, 0x00#8, 0x2D#8, 0x54#8, 0x43#8] =
    some [.err (.unkCmd 0x80#8 0x00#8)] := by decide
/-- V364 -/
theorem test_error_V364 : eventsOf [0x53#8, 0x59#8, 0x00#8, 0x01#8, 0x00#8, 0x01#8, 0x00#8, 0xAE#8, 0x54#8, 0x43#8] =
    some [.err (.unkCtrl 0x00#8 0x01#8)] := by decide
/-- V374 -/
theorem test_error_V374 : eventsOf [0x53#8, 0x59#8, 0x03#8, 0x80#8, 0x00#8, 0x01#8, 0x01#8, 0x31#8, 0x54#8, 0x43#8] =
    some [.err (.unkCtrl 0x03#8 0x80#8)] := by decide

/-! ### Short burst reports, longer payloads, the full-length string -/

/-- V157 -/
theorem test_payload_V157 : eventsOf [0x53#8, 0x59#8, 0x08#8, 0x01#8, 0x00#8, 0x04#8, 0x20#8, 0x04#8, 0x30#8, 0x06#8, 0x13#8, 0x54#8, 0x43#8] =
    some [.pub .spatialStatic (.u8 32#8), .pub .staticDist (.half8 4#8), .pub .spatialMotion (.u8 48#8), .pub .motionDist (.half8 6#8), .err (.short 0x08#8 0x01#8 5 4)] := by decide
/-- V160 -/
theorem test_payload_V160 : eventsOf [0x53#8, 0x59#8, 0x08#8, 0x01#8, 0x00#8, 0x00#8, 0xB5#8, 0x54#8, 0x43#8] =
    some [.err (.short 0x08#8 0x01#8 1 0), .err (.short 0x08#8 0x01#8 2 0), .err (.short 0x08#8 0x01#8 3 0), .err (.short 0x08#8 0x01#8 4 0), .err (.short 0x08#8 0x01#8 5 0)] := by decide
/-- V39 -/
theorem test_payload_V39 : eventsOf [0x53#8, 0x59#8, 0x05#8, 0x01#8, 0x00#8, 0x02#8, 0x02#8, 0x09#8, 0xBF#8, 0x54#8, 0x43#8] =
    some [.pub .sceneMode (.idx 2#8)] := by decide
/-- V97 -/
theorem test_payload_V97 : eventsOf [0x53#8, 0x59#8, 0x07#8, 0x01#8, 0x00#8, 0x03#8, 0x01#8, 0x02#8, 0x03#8, 0xBD#8, 0x54#8, 0x43#8] =
    some [.pub .movingMaxDist (.u16 258#16)] := by decide
/-- V3 -/
theorem test_payload_V3 : eventsOf [0x53#8, 0x59#8, 0x01#8, 0x01#8, 0x00#8, 0x20#8, 0x00#8, 0x01#8, 0x02#8, 0x03#8, 0x04#8, 0x05#8, 0x06#8, 0x07#8, 0x08#8, 0x09#8, 0x0A#8, 0x0B#8, 0x0C#8, 0x0D#8, 0x0E#8, 0x0F#8, 0x10#8, 0x11#8, 0x12#8, 0x13#8, 0x14#8, 0x15#8, 0x16#8, 0x17#8, 0x18#8, 0x19#8, 0x1A#8, 0x1B#8, 0x1C#8, 0x1D#8, 0x1E#8, 0x1F#8, 0xBE#8, 0x54#8, 0x43#8] =
    some [] := by decide

/-! ### Registers and cache slots written by a command -/

/-- V1: `SYS_HB` sets `hb` to 1. -/
theorem test_sysHb_sets_hb :
    (step (placeFrame [0x53#8, 0x59#8, 0x01#8, 0x01#8, 0x00#8, 0x01#8, 0x0F#8, 0xBE#8, 0x54#8, 0x43#8] .reset)
      matches .next { hb := 0x01#8, .. }) = true := by decide
/-- S1: the output-switch reply selects the custom dialect. -/
theorem test_oiSw80_selects_custom :
    (step (placeFrame [0x53#8, 0x59#8, 0x08#8, 0x80#8, 0x00#8, 0x01#8, 0x0F#8, 0x44#8, 0x54#8, 0x43#8] .reset)
      matches .next { dialect := .customProtocol, .. }) = true := by decide
/-- S1x: the bytes as printed fail the checksum and leave the dialect alone. -/
theorem test_bad_checksum_keeps_dialect :
    (step (placeFrame [0x53#8, 0x59#8, 0x08#8, 0x80#8, 0x00#8, 0x01#8, 0x0F#8, 0x01#8, 0x54#8, 0x43#8] .reset)
      matches .next { dialect := .unknown, out := [.err (.cksum 0x44#8 0x01#8)], .. }) = true := by decide
/-- V135: a zero switch byte selects the standard dialect. -/
theorem test_oiSw00_selects_standard :
    (step (placeFrame [0x53#8, 0x59#8, 0x08#8, 0x00#8, 0x00#8, 0x01#8, 0x00#8, 0xB5#8, 0x54#8, 0x43#8] .reset)
      matches .next { dialect := .standardProtocol, .. }) = true := by decide
/-- S2, V230: a timer value that the slot holds is decoded again and not published again. -/
theorem test_oiTtrig8C_again :
    (exec (.oiTtrig8C [0x00#8, 0x00#8, 0x00#8, 0x05#8])
      { State.reset with cache := { Cache.empty with triggerTime := some 5#32 } }
      matches .next { out := [], cache := { triggerTime := some 5#32, .. }, .. }) = true := by decide
/-- V276: the rest timer has a slot of its own. -/
theorem test_oiTrest0D_other_slot :
    (exec (.oiTrest0D [0x00#8, 0x00#8, 0x01#8, 0x00#8])
      { State.reset with cache := { Cache.empty with triggerTime := some 256#32 } }
      matches .next { out := [.pub .restTime (.u32 256#32)], cache := { restTime := some 256#32, .. }, .. }) = true := by
  decide
/-- V324: the amplitude slot is shared between the families. -/
theorem test_huAmpl83_shared_slot :
    (exec (.huAmpl83 [0x32#8]) { State.reset with cache := { Cache.empty with moveAmpl := some 0x32#8 } }
      matches .next { out := [], .. }) = true := by decide
/-- V151: only the speed changed; the static distance is published every time. -/
theorem test_oiBurst01_speed_changed :
    (exec (.oiBurst01 [0x20#8, 0x04#8, 0x30#8, 0x06#8, 0x08#8])
      { State.reset with cache := { Cache.empty with
        spatialStatic := some 0x20#8, spatialMotion := some 0x30#8, motionDist := some 0x06#8, motionSpeed := some 2#9 } }
      matches .next { out := [.pub .staticDist (.half8 0x04#8), .pub .motionSpeed (.shalf 0x1FE#9)], .. }) = true := by
  decide
/-- 95_test_vectors 2.3: `dispatch` driven directly with a `data_len` of 33. -/
theorem test_prdA1_overlong :
    (dispatch (frame 0x02#8 0xA1#8 (List.replicate 33 0x41#8)) .reset
      matches .next { out := [.err (.overstr 0x02#8 0xA1#8 33)], .. }) = true := by decide

/-! ### The Checksum Unit (K1, K3, K5, and `verify` on wrong tail bytes) -/

theorem test_checksum_K1 : sum8 [0x53#8, 0x59#8, 0x08#8, 0x80#8, 0x00#8, 0x01#8, 0x0F#8] = 0x44#8 := by decide
theorem test_checksum_K3 : sum8 [0x53#8, 0x59#8, 0x80#8, 0x83#8, 0x00#8, 0x01#8, 0x50#8] = 0x00#8 := by decide
theorem test_checksum_K5 : byteSum (frameBody 0xFF#8 0xFF#8 (List.replicate 32 0xFF#8)) = 0x22AA := by decide
theorem test_verify_ignores_tail :
    verify [0x53#8, 0x59#8, 0x01#8, 0x01#8, 0x00#8, 0x00#8, 0xAE#8, 0x00#8, 0x00#8] = true := by decide

/-! ### The Frame Decoder, one byte at a time (rows of F and T) -/

/-- F1: noise in `Idle` is silently dropped. -/
theorem test_idle_noise : oneStep (fun t => (decoderRegs t, t.out)) (.rx 0x00#8) .reset =
    some ((.idle, 0, 0, 0), []) := by decide
/-- F4 -/
theorem test_idle_header : oneStep decoderRegs (.rx 0x53#8) .reset = some (.sawHeader1, 1, 0, 0) := by decide
/-- F5 -/
theorem test_sawHeader1_header : oneStep decoderRegs (.rx 0x59#8) (midFrame .sawHeader1 1 0 0) =
    some (.readControl, 2, 0, 0) := by decide
/-- F7: a second 0x53 is a mismatch. -/
theorem test_sawHeader1_again : oneStep (fun t => (decoderRegs t, t.out)) (.rx 0x53#8) (midFrame .sawHeader1 1 0 0) =
    some ((.idle, 0, 0, 0), [.err (.hdr2 0x53#8)]) := by decide
/-- F8 -/
theorem test_readControl : oneStep decoderRegs (.rx 0x08#8) (midFrame .readControl 2 0 0) =
    some (.readCommand, 3, 0, 0) := by decide
/-- F9 -/
theorem test_readCommand : oneStep decoderRegs (.rx 0x80#8) (midFrame .readCommand 3 0 0) =
    some (.readLenHi, 4, 0, 0) := by decide
/-- F11 (boundary) -/
theorem test_readLenHi_4 : oneStep decoderRegs (.rx 0x04#8) (midFrame .readLenHi 4 0 0) =
    some (.readLenLo, 5, 1024, 0) := by decide
/-- F12 (boundary) -/
theorem test_readLenHi_5 : oneStep (fun t => (decoderRegs t, t.out)) (.rx 0x05#8) (midFrame .readLenHi 4 0 0) =
    some ((.idle, 0, 0, 0), [.err (.lenHi 0x05#8)]) := by decide
/-- F16 (boundary) -/
theorem test_readLenLo_32 : oneStep decoderRegs (.rx 0x20#8) (midFrame .readLenLo 5 0 0) =
    some (.readPayload, 6, 32, 32) := by decide
/-- F17 (boundary) -/
theorem test_readLenLo_33 : oneStep (fun t => (decoderRegs t, t.out)) (.rx 0x21#8) (midFrame .readLenLo 5 0 0) =
    some ((.idle, 0, 0, 0), [.err (.lenOver 33)]) := by decide
/-- F21: the largest total. -/
theorem test_readLenLo_1279 : oneStep State.out (.rx 0xFF#8) (midFrame .readLenLo 5 1024 0) =
    some [.err (.lenOver 1279)] := by decide
/-- F22: a length of 0 skips the payload. -/
theorem test_readLenLo_0 : oneStep decoderRegs (.rx 0x00#8) (midFrame .readLenLo 5 0 0) =
    some (.readChecksum, 6, 0, 0) := by decide
/-- F23 -/
theorem test_readPayload_first : oneStep decoderRegs (.rx 0xAA#8) (midFrame .readPayload 6 2 2) =
    some (.readPayload, 7, 2, 1) := by decide
/-- F24, and the byte stands in the buffer. -/
theorem test_readPayload_last : oneStep (fun t => (decoderRegs t, t.buf.read 7)) (.rx 0xBB#8) (midFrame .readPayload 7 2 1) =
    some ((.readChecksum, 8, 2, 0), 0xBB#8) := by decide
/-- F25 -/
theorem test_readChecksum : oneStep decoderRegs (.rx 0x2F#8) (midFrame .readChecksum 7 1 0) =
    some (.sawTail1, 8, 1, 0) := by decide
/-- F26 -/
theorem test_sawTail1_tail : oneStep decoderRegs (.rx 0x54#8) (midFrame .sawTail1 8 1 0) =
    some (.sawTail2, 9, 1, 0) := by decide
/-- F28 -/
theorem test_sawTail1_43 : oneStep (fun t => (decoderRegs t, t.out)) (.rx 0x43#8) (midFrame .sawTail1 8 1 0) =
    some ((.idle, 0, 0, 0), [.err (.tail1 0x43#8)]) := by decide
/-- F30 -/
theorem test_sawTail2_54 : oneStep (fun t => (decoderRegs t, t.out)) (.rx 0x54#8) (midFrame .sawTail2 9 1 0) =
    some ((.idle, 0, 0, 0), [.err (.tail2 0x54#8)]) := by decide
/-- A countdown of 0 in `ReadPayload` is outside the rule's precondition: the model stops. -/
theorem test_readPayload_cnt0 : (rx 0x00#8 (midFrame .readPayload 6 0 0) matches .fault .countdownUnderflow) = true := by
  decide

/-! ### The host (H1, H2, H5; P6; the ports) -/

/-- H1 -/
theorem test_hbTake_255 : oneStep (fun t => (t.hb, t.out)) .hbTake .reset = some (0xFF#8, []) := by decide
/-- H2 -/
theorem test_hbTake_1 : oneStep (fun t => (t.hb, t.out)) .hbTake { State.reset with hb := 0x01#8 } =
    some (0xFF#8, [.pub .heartbeat (.u8 0x01#8)]) := by decide
/-- H5 -/
theorem test_hbTake_0 : oneStep (fun t => (t.hb, t.out)) .hbTake { State.reset with hb := 0x00#8 } =
    some (0xFF#8, [.pub .heartbeat (.u8 0x00#8)]) := by decide
/-- P6 row 5: a reset in mid-frame loses the frame without an event. -/
theorem test_reset_mid_frame : oneStep (fun t => t) .reset (midFrame .readPayload 6 1 1) = some State.reset := by decide
/-- 70 R342: `rst` has priority over the other two inputs. -/
theorem test_rst_priority : PortSample.request ⟨true, true, 0x53#8, true⟩ = some .reset := by decide
/-- An idle block keeps its state and puts out nothing (60 R324). -/
theorem test_idle_block : (step (midFrame .readPayload 6 1 1) matches .next { st := .readPayload, widx := 6, out := [], .. }) =
    true := by decide

/-! ### Placing an opcode-table word -/

/-- The step after `withFetchWord` runs the row's command. -/
theorem test_withFetchWord_sysHb : (step (State.reset.withFetchWord 16 0x0101) matches .next { hb := 0x01#8, .. }) = true := by
  decide
/-- A placed product command with `data_len` 0 publishes the empty string (V10). -/
theorem test_withFetchWord_prdA1 : (step (State.reset.withFetchWord 16 0x02A1) matches
    .next { out := [.pub .productA1 (.bytes [])], .. }) = true := by decide
/-- The table word of a row decodes to the row's instruction with an empty payload. -/
theorem test_decodeTableWord : decodeTableWord 16 0x808B = some (.huAppr8B []) := by decide
/-- A word of no row is refused. -/
theorem test_decodeTableWord_unknown : decodeTableWord 16 0x0881 = none := by decide

/-! ### Witnesses -/

/-! For each statement of Certificates/Slice0 with hypotheses, concrete values that meet them together, at the boundary values of
each clause. `witness_X` belongs to `Obligations.X`. -/

/-- The invariant as a check on states written out, for the witnesses below. -/
def goodCheck (s : State) : Bool :=
  decide (41 ≤ s.params.bufCap) && s.buf.wf && s.buf.all (fun c => decide (c.1 < s.params.bufCap)) &&
  decide (s.widx = s.tableWidx) &&
  (match s.st with
    | .idle | .sawHeader1 | .readControl | .readCommand | .readLenHi => decide (s.lenStage = 0)
    | .readLenLo => decide (s.lenStage = (s.buf.read 4).toNat * 256 ∧ (s.buf.read 4).toNat ≤ 4)
    | .readPayload | .readChecksum | .sawTail1 | .sawTail2 => decide (s.lenStage ≤ 32)) &&
  (match s.st with
    | .readPayload => decide (1 ≤ s.cnt ∧ s.cnt ≤ s.lenStage)
    | _ => decide (s.cnt = 0)) &&
  decide (1 ≤ s.widx → s.buf.read 0 = 0x53#8) && decide (2 ≤ s.widx → s.buf.read 1 = 0x59#8) &&
  decide (6 ≤ s.widx → s.buf.read 4 = 0x00#8 ∧ (s.buf.read 5).toNat = s.lenStage) &&
  decide (s.st = .sawTail2 → s.buf.read (7 + s.lenStage) = 0x54#8) &&
  decide (s.hb = 0xFF#8 ∨ s.hb = 0x00#8 ∨ s.hb = 0x01#8) &&
  decide (s.cache.motionSpeed = none) && decide (s.params.cacheInit.motionSpeed = none)

theorem good_of_check {s : State} (h : goodCheck s = true) : BlockInv s := by
  simp only [goodCheck, Bool.and_eq_true, decide_eq_true_eq] at h
  obtain ⟨⟨⟨⟨⟨⟨⟨⟨⟨⟨⟨⟨h1, h2⟩, h3⟩, h4⟩, h5⟩, h6⟩, h7⟩, h8⟩, h9⟩, h10⟩, h11⟩, h12⟩, h13⟩ := h
  refine ⟨h1, h2, ?_, h4, ?_, ?_, ⟨h7, h8, h9, h10⟩, h11, ?_, ?_⟩
  · intro a ha
    have hall : ∀ c ∈ s.buf, c.1 ≠ a := fun c hc e => by
      have := of_decide_eq_true (List.all_eq_true.mp h3 c hc); omega
    revert hall
    generalize s.buf = m
    intro hall
    induction m with
    | nil => rfl
    | cons c m ih =>
      simp only [Memory.read, if_neg (Ne.symm (hall c (by simp)))]
      exact ih fun d hd => hall d (by simp [hd])
  · cases hst : s.st <;> simp_all [State.lenStageOk, Config.maxPayload, Config.lenHiMax]
  · cases hst : s.st <;> simp_all [State.cntOk]
  · intro v hv; simp [h12] at hv
  · intro v hv; simp [h13] at hv

/-- A block that has received all of `bs` but the last byte. -/
def received (bs : List Byte) : State := { placeFrame bs .reset with input := [] }

theorem witness_EncodeIsTheFrameFormula : (List.replicate 32 0xFF#8).length ≤ 32 ∧ ([] : List Byte).length ≤ 32 := by decide
theorem witness_DecodeOfEncodeIsIdentity :
    (Instr.oiPdist83 (List.replicate 32 0x54#8)).wellFormed = true ∧ (Instr.sysHb []).wellFormed = true := by decide
theorem witness_DecodedBytesAreTheEncoding :
    decode [0x53#8, 0x59#8, 0x02#8, 0xA1#8, 0x00#8, 0x00#8, 0x4F#8, 0x54#8, 0x43#8] = .instr (.prdA1 []) := by decide
theorem witness_RomMapsExactlyFortyEightPairs :
    0x04#8 ∉ knownControls ∧ 0x01#8 ∈ knownControls ∧ (∀ i : Instr, ¬ (i.control = 0x01#8 ∧ i.command = 0x03#8)) :=
  ⟨by decide, by decide, fun i => by cases i <;> simp [Instr.control, Instr.command]⟩
theorem witness_UnknownControlWordIsReported :
    0x00#8 ∉ knownControls ∧ 0x03#8 ∉ knownControls ∧ 0xFF#8 ∉ knownControls ∧ [0x00#8].length ≤ 32 := by decide
theorem witness_UnknownCommandWordIsReported :
    0x08#8 ∈ knownControls ∧ (∀ i : Instr, ¬ (i.control = 0x08#8 ∧ i.command = 0x81#8)) ∧ [0x00#8].length ≤ 32 :=
  ⟨by decide, fun i => by cases i <;> simp [Instr.control, Instr.command], by decide⟩
theorem witness_ProductStringsPublishThePayload : (List.replicate 32 0x41#8).length ≤ 32 := by decide
theorem witness_OverlongProductStringIsReported : 32 < (List.replicate 33 0x41#8).length := by decide
theorem witness_ProtocolTypeCodesArePublished :
    (0x01#8 : Byte).toNat = 1 ∧ (0x03#8 : Byte).toNat = 3 ∧ ((0x00#8 : Byte).toNat ≠ 1 ∧ (0x00#8 : Byte).toNat ≠ 3) ∧
    ((0x02#8 : Byte).toNat ≠ 1 ∧ (0x02#8 : Byte).toNat ≠ 3) ∧ ((0xFF#8 : Byte).toNat ≠ 1 ∧ (0xFF#8 : Byte).toNat ≠ 3) := by
  decide
theorem witness_SceneIndexIsPublished :
    (1 ≤ (0x01#8 : Byte).toNat ∧ (0x01#8 : Byte).toNat ≤ 4) ∧ (1 ≤ (0x04#8 : Byte).toNat ∧ (0x04#8 : Byte).toNat ≤ 4) := by
  decide
theorem witness_OutputSwitchWritesTheDialect :
    (0x01#8 : Byte).toNat ≠ 0 ∧ (0xFF#8 : Byte).toNat ≠ 0 ∧ (0x00#8 : Byte).toNat = 0 := by decide
/-- Lengths 0 to 4, so that each field has its case inside and beyond the payload; and the report of 60 R312. -/
theorem witness_ShortBurstReportDecodesWhatIsThere :
    [0, 1, 2, 3, 4].all (fun n => decide ((List.replicate n 0x20#8).length < 5)) = true ∧
    (exec (.oiBurst01 [0x20#8, 0x04#8, 0x30#8]) .reset matches .next { out := [.pub .spatialStatic (.u8 0x20#8),
      .pub .staticDist (.half8 0x04#8), .pub .spatialMotion (.u8 0x30#8), .err (.short 0x08#8 0x01#8 4 3),
      .err (.short 0x08#8 0x01#8 5 3)], .. }) = true := by decide
theorem witness_ApproachStateIsPublished : (0x00#8 : Byte).toNat ≤ 2 ∧ (0x02#8 : Byte).toNat ≤ 2 := by decide
theorem witness_AmplitudeGoesThroughTheSharedSlot :
    exec (.huAmpl83 [0x50#8]) .reset = .next { State.reset with
      cache := { Cache.empty with moveAmpl := some 0x50#8 }, out := [.pub .moveAmpl (.u8 0x50#8)] } := rfl
theorem witness_BoundariesAndPresenceDistanceArePublished :
    (1 ≤ (0x01#8 : Byte).toNat ∧ (0x01#8 : Byte).toNat ≤ 10) ∧ (1 ≤ (0x0A#8 : Byte).toNat ∧ (0x0A#8 : Byte).toNat ≤ 10) ∧
    (0x00#8 : Byte).toNat ≤ 6 ∧ (0x06#8 : Byte).toNat ≤ 6 := by decide
theorem witness_TimersGoThroughTheirSlots :
    exec (.oiTunm0E [0x00#8, 0x00#8, 0x00#8, 0x05#8]) .reset = .next { State.reset with
      cache := { Cache.empty with unmannedTime := some 5#32 }, out := [.pub .unmannedTime (.u32 5#32)] } := rfl
theorem witness_PresenceMotionAndDurationArePublished :
    (0x02#8 : Byte).toNat ≤ 2 ∧ (0x08#8 : Byte).toNat ≤ 8 := by decide
theorem witness_OutOfRangeIndexIsReported :
    (∃ e : Byte → Byte → State, ∀ c k, e c k = { State.reset with out := State.reset.out ++ [.err (.range c k 0x05#8)] }) ∧
    (0x00#8 : Byte).toNat = 0 ∧ 5 ≤ (0x05#8 : Byte).toNat ∧ 11 ≤ (0x0B#8 : Byte).toNat ∧ 7 ≤ (0x07#8 : Byte).toNat ∧
    3 ≤ (0x03#8 : Byte).toNat ∧ 9 ≤ (0x09#8 : Byte).toNat := ⟨⟨_, fun _ _ => rfl⟩, by decide⟩
theorem witness_ShortPayloadIsReported :
    (Instr.huPres01 []).payload.length < 1 ∧ (Instr.drMov81 [0x02#8]).payload.length < 2 ∧
    (Instr.oiTrest8D [0x00#8, 0x00#8, 0x01#8]).payload.length < 4 := by decide
/-- Each register of the dispatcher is changed by a command of its own. -/
theorem witness_CommandsLeaveTheRestAlone :
    (exec (.sysHb []) .reset matches .next { hb := 0x01#8, .. }) = true ∧
    (exec (.oiSw80 [0x00#8]) .reset matches .next { dialect := .standardProtocol, .. }) = true ∧
    (exec (.oiTtrig8C [0x00#8, 0x00#8, 0x00#8, 0x05#8]) .reset matches .next { cache := { triggerTime := some _, .. }, .. }) = true ∧
    (exec (.oiBurst01 [0x20#8]) .reset matches .next { cache := { spatialStatic := some _, .. }, .. }) = true := by decide
/-- The state one step before an output-switch reply is complete. -/
def beforeSwitch : State := placeFrame (encode (.oiSw80 [0x0F#8])) .reset
theorem witness_DialectIsWrittenBySwitchCommandsAndResetOnly :
    ((step beforeSwitch matches .next { dialect := .customProtocol, .. }) = true ∧ beforeSwitch.dialect = .unknown) ∧
    (step { State.reset with dialect := .customProtocol, input := [.reset] } matches .next { dialect := .unknown, .. }) =
      true := by decide
theorem witness_DialectReturnsToUnknownOnlyByReset :
    ({ State.reset with dialect := .standardProtocol, input := [.reset] } : State).input = .reset :: [] ∧
    (step { State.reset with dialect := .standardProtocol, input := [.reset] } matches .next { dialect := .unknown, .. }) = true ∧
    (step beforeSwitch matches .next { dialect := .customProtocol, .. }) = true := by decide
/-- A first decode of each kind, the timer's by both of its commands. -/
theorem witness_RepeatedValuesAreNotPublishedAgain :
    (exec (.huAmpl03 [0x32#8]) .reset matches .next { out := [.pub .moveAmpl (.u8 0x32#8)], .. }) = true ∧
    (exec (.oiTrest0D [0x00#8, 0x00#8, 0x01#8, 0x00#8]) .reset matches .next { out := [.pub .restTime (.u32 256#32)], .. }) = true ∧
    (exec (.oiTrest8D [0x00#8, 0x00#8, 0x01#8, 0x00#8]) .reset matches .next { out := [.pub .restTime (.u32 256#32)], .. }) = true ∧
    (exec (.oiBurst01 [0x20#8, 0x04#8, 0x30#8, 0x06#8, 0x0C#8]) .reset matches .next { out := [_, _, _, _, _], .. }) = true := by
  decide
theorem witness_IdleTakesOnlyTheFirstHeaderByte :
    State.reset.st = .idle ∧ 41 ≤ State.reset.params.bufCap ∧ (0x59#8 : Byte) ≠ 0x53#8 := by decide
theorem witness_SecondHeaderByteCommitsOrAborts :
    (midFrame .sawHeader1 1 0 0).st = .sawHeader1 ∧ 41 ≤ (midFrame .sawHeader1 1 0 0).params.bufCap ∧
    (0x53#8 : Byte) ≠ 0x59#8 := by decide
theorem witness_ControlAndCommandWordsAreStored :
    41 ≤ (midFrame .readControl 2 0 0).params.bufCap ∧ (midFrame .readControl 2 0 0).st = .readControl ∧
    (midFrame .readCommand 3 0 0).st = .readCommand := by decide
theorem witness_HighLengthByteIsStagedOrRefused :
    (midFrame .readLenHi 4 0 0).st = .readLenHi ∧ 41 ≤ (midFrame .readLenHi 4 0 0).params.bufCap ∧
    (0x04#8 : Byte).toNat ≤ 4 ∧ 4 < (0x05#8 : Byte).toNat := by decide
/-- Totals 0, 1, 32, 33 and 1279. -/
theorem witness_TotalLengthIsAcceptedUpTo32 :
    (midFrame .readLenLo 5 0 0).st = .readLenLo ∧ 41 ≤ (midFrame .readLenLo 5 0 0).params.bufCap ∧
    (midFrame .readLenLo 5 0 0).lenStage + (0x00#8 : Byte).toNat = 0 ∧
    (midFrame .readLenLo 5 0 0).lenStage + (0x01#8 : Byte).toNat = 1 ∧
    (midFrame .readLenLo 5 0 0).lenStage + (0x20#8 : Byte).toNat = 32 ∧
    32 < (midFrame .readLenLo 5 0 0).lenStage + (0x21#8 : Byte).toNat ∧
    (midFrame .readLenLo 5 1024 0).lenStage + (0xFF#8 : Byte).toNat = 1279 := by decide
theorem witness_PayloadBytesAreStoredAndCounted :
    (BlockInv (midFrame .readPayload 6 32 32) ∧ 1 < (midFrame .readPayload 6 32 32).cnt) ∧
    (BlockInv (midFrame .readPayload 37 32 1) ∧ (midFrame .readPayload 37 32 1).cnt = 1) ∧
    (midFrame .readPayload 37 32 1).st = .readPayload :=
  ⟨⟨good_of_check (by decide), by decide⟩, ⟨good_of_check (by decide), rfl⟩, rfl⟩
theorem witness_ChecksumAndFirstTailByteAreStored :
    BlockInv (midFrame .readChecksum 6 0 0) ∧ BlockInv (midFrame .readChecksum 38 32 0) ∧ BlockInv (midFrame .sawTail1 7 0 0) ∧
    BlockInv (midFrame .sawTail1 39 32 0) ∧ (0x53#8 : Byte) ≠ 0x54#8 :=
  ⟨good_of_check (by decide), good_of_check (by decide), good_of_check (by decide), good_of_check (by decide), by decide⟩
/-- K5's longest frame and the shortest one, both one byte short. -/
theorem witness_SecondTailByteCompletesOrDiscards :
    BlockInv (received (encode (.prdA1 (List.replicate 32 0xFF#8)))) ∧ BlockInv (received (encode (.sysHb []))) ∧
    (received (encode (.sysHb []))).st = .sawTail2 ∧ (0x54#8 : Byte) ≠ 0x43#8 :=
  ⟨good_of_check (by decide +kernel), good_of_check (by decide), rfl, by decide⟩
/-- The frame of 60 R307 with the checksum byte 0x45 in place of 0x44. -/
def badFrame : List Byte := [0x53#8, 0x59#8, 0x08#8, 0x80#8, 0x00#8, 0x01#8, 0x0F#8, 0x45#8, 0x54#8, 0x43#8]
theorem witness_ChecksumMismatchIsNeverDispatched :
    BlockInv (received badFrame) ∧ (received badFrame).st = .sawTail2 ∧
    checksum (snapshot (tailStored (received badFrame))) ≠ (received badFrame).buf.read (6 + (received badFrame).lenStage) :=
  ⟨good_of_check (by decide), rfl, by decide⟩
theorem witness_CompletedFrameIsDispatched :
    BlockInv (received (encode (.oiSw80 [0x0F#8]))) ∧ (received (encode (.oiSw80 [0x0F#8]))).st = .sawTail2 ∧
    checksum (snapshot (tailStored (received (encode (.oiSw80 [0x0F#8]))))) =
      (received (encode (.oiSw80 [0x0F#8]))).buf.read (6 + (received (encode (.oiSw80 [0x0F#8]))).lenStage) :=
  ⟨good_of_check (by decide), rfl, by decide⟩
/-- A byte that is stored, and one that is not. -/
theorem witness_ReceivingWritesAtMostOneByte :
    BlockInv (midFrame .readPayload 6 32 32) ∧
    (rx 0xAA#8 (midFrame .readPayload 6 32 32) matches .next { widx := 7, .. }) = true ∧
    BlockInv (midFrame .sawTail1 7 0 0) ∧ (rx 0xAA#8 (midFrame .sawTail1 7 0 0) matches .next { widx := 0, .. }) = true :=
  ⟨good_of_check (by decide), by decide, good_of_check (by decide), by decide⟩
theorem witness_ChecksumAndVerifyAreTheSum : 3 ≤ [0x44#8, 0x54#8, 0x43#8].length ∧ 3 ≤ badFrame.length := by decide
theorem witness_ChecksumWrapsAndCatchesOneByteNotReordering :
    verify ([0x53#8, 0x59#8, 0x08#8] ++ [0xB4#8, 0x54#8, 0x43#8]) = true ∧ 2 < [0x53#8, 0x59#8, 0x08#8].length ∧
    0x09#8 ≠ byteAt [0x53#8, 0x59#8, 0x08#8] 2 ∧ 0xB5#8 ≠ 0xB4#8 ∧
    [0x08#8, 0x53#8, 0x59#8].Perm [0x53#8, 0x59#8, 0x08#8] := by decide
theorem witness_StepServesTheFirstRequest :
    State.reset.input = [] ∧ ({ State.reset with input := [.rx 0x53#8] } : State).input = .rx 0x53#8 :: [] ∧
    ({ State.reset with input := [.hbTake] } : State).input = .hbTake :: [] ∧
    ({ State.reset with input := [.reset] } : State).input = .reset :: [] ∧
    ({ State.reset with input := [.rxAndTake 0x53#8] } : State).input = .rxAndTake 0x53#8 :: [] := by decide
theorem witness_StepRunsTheDecodedInstruction :
    beforeSwitch.st = .sawTail2 ∧ beforeSwitch.input = .rx 0x43#8 :: [] ∧ beforeSwitch.widx < beforeSwitch.params.bufCap ∧
    beforeSwitch.buf.wf = true ∧ decode (snapshot beforeSwitch ++ [0x43#8]) = .instr (.oiSw80 [0x0F#8]) := by decide
theorem witness_HbTakePublishesOnce : State.reset.hb = 0xFF#8 ∧ ({ State.reset with hb := 0x01#8 } : State).hb ≠ 0xFF#8 := by
  decide
theorem witness_ResetRestoresEveryRegister :
    ({ midFrame .readPayload 6 1 1 with input := [.reset, .hbTake] } : State).input = .reset :: [.hbTake] := by decide
/-- A heartbeat reply with the checksum byte 0xBF in place of 0xBE. -/
def badHeartbeat : List Byte := [0x53#8, 0x59#8, 0x01#8, 0x01#8, 0x00#8, 0x01#8, 0x0F#8, 0xBF#8, 0x54#8, 0x43#8]
/-- A byte in mid-frame, the last byte of a frame that is no heartbeat reply, and the last byte of a heartbeat reply that does not
verify. -/
theorem witness_RxAndHbTakeCommuteOrAreOrdered :
    BlockInv (midFrame .readPayload 6 32 32) ∧ (midFrame .readPayload 6 32 32).st ≠ .sawTail2 ∧
    BlockInv (received (encode (.oiSw80 [0x0F#8]))) ∧ (received (encode (.oiSw80 [0x0F#8]))).buf.read 2 ≠ 0x01#8 ∧
    BlockInv (received badHeartbeat) ∧ (received badHeartbeat).buf.read 2 = 0x01#8 ∧
    (received badHeartbeat).buf.read 3 = 0x01#8 ∧
    checksum (snapshot (tailStored (received badHeartbeat))) ≠
      (received badHeartbeat).buf.read (6 + (received badHeartbeat).lenStage) :=
  ⟨good_of_check (by decide), by decide, good_of_check (by decide), by decide, good_of_check (by decide), by decide, by decide,
    by decide⟩
theorem witness_HeartbeatCompletionDependsOnTheOrder :
    BlockInv (received (encode (.sysHb [0x0F#8]))) ∧ (received (encode (.sysHb [0x0F#8]))).st = .sawTail2 ∧
    (received (encode (.sysHb [0x0F#8]))).hb = 0xFF#8 ∧ (received (encode (.sysHb [0x0F#8]))).buf.read 2 = 0x01#8 ∧
    (received (encode (.sysHb [0x0F#8]))).buf.read 3 = 0x01#8 ∧
    checksum (snapshot (tailStored (received (encode (.sysHb [0x0F#8]))))) =
      (received (encode (.sysHb [0x0F#8]))).buf.read (6 + (received (encode (.sysHb [0x0F#8]))).lenStage) :=
  ⟨good_of_check (by decide), rfl, rfl, by decide, by decide, by decide⟩
theorem witness_EveryStepKeepsTheBlockGood :
    BlockInv { midFrame .readPayload 6 32 32 with input := [.rx 0x53#8] } ∧
    (step { midFrame .readPayload 6 32 32 with input := [.rx 0x53#8] } matches .next { widx := 7, cnt := 31, .. }) = true :=
  ⟨good_of_check (by decide), by decide⟩
theorem witness_NoInputStopsTheBlock : BlockInv { midFrame .sawTail1 39 32 0 with input := [.rxAndTake 0x54#8] } :=
  good_of_check (by decide)
theorem witness_PlacedFrameIsTheDeliveredFrame :
    (List.replicate 32 0x53#8).length ≤ 32 ∧ 41 ≤ State.reset.params.bufCap ∧ State.reset.st = .idle := by decide
/-- The first and the last step before the completing one. -/
theorem witness_DeliveredFrameRunsItsCommandOnce :
    BlockInv { State.reset with dialect := .customProtocol, hb := 0x01#8 } ∧ State.reset.st = .idle ∧
    (runFor 1 { State.reset with input := deliver (frame 0x80#8 0x01#8 [0x01#8]) [] } matches .next { widx := 1, .. }) = true ∧
    (runFor 9 { State.reset with input := deliver (frame 0x80#8 0x01#8 [0x01#8]) [] } matches .next { widx := 9, .. }) = true :=
  ⟨good_of_check (by decide), rfl, by decide, by decide⟩
theorem witness_NoiseWithoutHeaderIsDropped :
    State.reset.st = .idle ∧ 0x53#8 ∉ [0x59#8, 0x54#8, 0x43#8, 0x00#8] ∧ [0x59#8, 0x54#8, 0x43#8, 0x00#8] ≠ [] := by decide
theorem witness_DecoderReturnsToIdleWithinFortyBytes :
    BlockInv { midFrame .sawHeader1 1 0 0 with input := deliver (List.replicate 40 0x59#8) [] } ∧
    (midFrame .sawHeader1 1 0 0).st ≠ .idle ∧ 40 ≤ (List.replicate 40 0x59#8).length :=
  ⟨good_of_check (by decide), by decide, by decide⟩
theorem witness_BufferCapacityIsUnobservable : BlockInv { midFrame .sawTail1 39 32 0 with input := [.rx 0x54#8] } ∧ 41 ≤ 41 :=
  ⟨good_of_check (by decide), Nat.le_refl _⟩
theorem witness_DecodingIgnoresTheDispatcherRegisters :
    sameDecoder State.reset { State.reset with
      cache := { Cache.empty with moveAmpl := some 0x32#8 }
      dialect := .customProtocol
      hb := 0x01#8 } := ⟨rfl, rfl, rfl, rfl, rfl, rfl, rfl⟩
/-- The invariant check refuses a state that no run reaches. -/
theorem test_goodCheck_refuses : goodCheck (midFrame .readPayload 6 0 0) = false := by decide


end Sys2Proof.Tests
end

section
/-! PROOFS of the family 20_memory: the dispatch ROM (20 R62, 30 R100 to R103). `romLookup_row_own` and `romLookup_answers` say
once what the look-up answers; everything else about the ROM follows from these two. -/

namespace Sys2Proof

open Machine Laws.RomRow

/-- The per-row laws of the ROM, for any instruction. -/
theorem romLookup_row_own (i : Instr) : romLookup i.control i.command i.payload = .row i :=
  i.casesOn (motive := Statement)
    sysHb sysRst
    prdA1 prdA2 prdA3 prdA4 prdProto
    wsScene01 wsScene07 wsScene87 wsSens08 wsSens88 wsInit81
    drMov01 drMov81 drSta04 drSta84
    oiSw00 oiSw80 oiBurst01 oiAppr06 oiAmpl07 oiAmpl87 oiJth08 oiJth88 oiAth09 oiAth89 oiPbd0A oiPbd8A oiTbd0B oiTbd8B
    oiTtrig0C oiTtrig8C oiTrest0D oiTrest8D oiTunm0E oiTunm8E oiPdist83
    huPres01 huPres81 huMot02 huMot82 huAmpl03 huAmpl83 huUnm0A huUnm8A huAppr0B huAppr8B

/-! ### What an answer of the ROM says about the question -/

/-- The answer fits the pair and payload asked for: a row carries all of them, an error names the pair and the level of the
look-up that failed. -/
def RomResult.Answers (c k : Byte) (p : List Byte) : RomResult → Prop
  | .row i => i.control = c ∧ i.command = k ∧ i.payload = p
  | .unknownControl c' k' => c ∉ knownControls ∧ c' = c ∧ k' = k
  | .unknownCommand c' k' => c ∈ knownControls ∧ c' = c ∧ k' = k

/-- The inversion lemma of the ROM, along its two levels: the control word chooses a family or none, then the command word chooses
a row of the family or none. -/
theorem romLookup_answers (c k : Byte) (p : List Byte) : (romLookup c k p).Answers c k p := by
  unfold romLookup
  split
  case h_7 => exact ⟨by simp_all [knownControls], rfl, rfl⟩
  all_goals
    simp only [romSystem, romProduct, romWorkStatus, romDetectionRange, romOpenInfo, romHuman]
    split <;> simp [RomResult.Answers, knownControls, Instr.control, Instr.command, Instr.payload]

theorem romLookup_eq_row_iff {c k : Byte} {p : List Byte} {i : Instr} :
    romLookup c k p = .row i ↔ i.control = c ∧ i.command = k ∧ i.payload = p := by
  constructor
  · intro hrow
    simpa [RomResult.Answers, hrow] using romLookup_answers c k p
  · rintro ⟨rfl, rfl, rfl⟩
    exact romLookup_row_own i

theorem control_mem_knownControls (i : Instr) : i.control ∈ knownControls := by
  cases i <;> simp [Instr.control, knownControls]

theorem romLookup_unknownControl {c : Byte} (hc : c ∉ knownControls) (k : Byte) (p : List Byte) :
    romLookup c k p = .unknownControl c k :=
  match romLookup c k p, romLookup_answers c k p with
  | .row i, ⟨hctrl, _, _⟩ => absurd (hctrl ▸ control_mem_knownControls i) hc
  | .unknownControl _ _, ⟨_, rfl, rfl⟩ => rfl
  | .unknownCommand _ _, ⟨hmem, _, _⟩ => absurd hmem hc

theorem romLookup_unknownCommand {c k : Byte} (hc : c ∈ knownControls)
    (hpair : ∀ i : Instr, ¬ (i.control = c ∧ i.command = k)) (p : List Byte) :
    romLookup c k p = .unknownCommand c k :=
  match romLookup c k p, romLookup_answers c k p with
  | .row i, ⟨hctrl, hcmd, _⟩ => absurd ⟨hctrl, hcmd⟩ (hpair i)
  | .unknownControl _ _, ⟨hmem, _, _⟩ => absurd hc hmem
  | .unknownCommand _ _, ⟨_, rfl, rfl⟩ => rfl

/-! ### The 48 pairs -/

/-- The commands of the ROM in the order of 30 R100, each as a function of its payload. -/
def romCommands : List (List Byte → Instr) :=
  [.sysHb, .sysRst,
   .prdA1, .prdA2, .prdA3, .prdA4, .prdProto,
   .wsScene01, .wsScene07, .wsScene87, .wsSens08, .wsSens88, .wsInit81,
   .drMov01, .drMov81, .drSta04, .drSta84,
   .oiSw00, .oiSw80, .oiBurst01, .oiAppr06, .oiAmpl07, .oiAmpl87, .oiJth08, .oiJth88, .oiAth09, .oiAth89, .oiPbd0A, .oiPbd8A,
   .oiTbd0B, .oiTbd8B, .oiTtrig0C, .oiTtrig8C, .oiTrest0D, .oiTrest8D, .oiTunm0E, .oiTunm8E, .oiPdist83,
   .huPres01, .huPres81, .huMot02, .huMot82, .huAmpl03, .huAmpl83, .huUnm0A, .huUnm8A, .huAppr0B, .huAppr8B]

/-- The pairs of the ROM's commands; a command's pair does not depend on its payload (`romRow_of_mem_romCommands`). -/
def romPairs : List (Byte × Byte) := romCommands.map fun f => ((f []).control, (f []).command)

theorem romPairs_length : romPairs.length = 48 := rfl

theorem romPairs_nodup : romPairs.Nodup := by decide

theorem romRow_of_mem_romCommands :
    ∀ f ∈ romCommands, romRow (f []).control (f []).command f := by
  simp only [romCommands, List.forall_mem_cons, List.not_mem_nil, false_imp_iff, implies_true, and_true]
  and_intros <;> exact fun p => rfl

theorem pair_mem_romPairs (i : Instr) : (i.control, i.command) ∈ romPairs := by
  cases i <;> simp only [Instr.control, Instr.command] <;> decide

theorem exists_row_iff_mem_romPairs {c k : Byte} {p : List Byte} :
    (∃ i, romLookup c k p = .row i) ↔ (c, k) ∈ romPairs := by
  constructor
  · rintro ⟨i, hrow⟩
    obtain ⟨rfl, rfl, -⟩ := romLookup_eq_row_iff.mp hrow
    exact pair_mem_romPairs i
  · intro hmem
    obtain ⟨f, hf, hpair⟩ := List.mem_map.mp hmem
    obtain ⟨rfl, rfl⟩ := Prod.mk.inj hpair
    exact ⟨f p, romRow_of_mem_romCommands f hf p⟩

/-- Settles O5: the inversion lemma gives the rows and both errors; the 48 pairs are those of the commands. -/
theorem romMapsExactlyFortyEightPairs : Obligations.RomMapsExactlyFortyEightPairs :=
  ⟨fun _ _ _ _ => romLookup_eq_row_iff,
   ⟨romPairs, romPairs_length, romPairs_nodup, fun _ _ _ => exists_row_iff_mem_romPairs⟩,
   fun _ k p hc => romLookup_unknownControl hc k p,
   fun _ _ p hc hpair => romLookup_unknownCommand hc hpair p⟩

end Sys2Proof
end

section
/-! PROOFS of the family 30_encoding: the layout of a frame (30 R92, R95, R108). What a reader finds in a frame is said once, by
`drop_six_frame` for the payload and `memRead_frame_length` for `data_len`; `dispatch_frame` puts them together. -/

namespace Sys2Proof

open Machine

/-! ### The bytes of a frame as 30 R108 writes them -/

/-- The two length bytes are the high and the low byte of the payload's length. -/
theorem frameBody_eq_shift_mask (cc ss : Byte) (p : List Byte) :
    frameBody cc ss p =
      [0x53#8, 0x59#8, cc, ss, BitVec.ofNat 8 (p.length >>> 8), BitVec.ofNat 8 (p.length &&& 0xFF)] ++ p := by
  have hlow : BitVec.ofNat 8 (p.length &&& 0xFF) = BitVec.ofNat 8 p.length := by
    rw [Nat.and_two_pow_sub_one_eq_mod p.length 8]
    exact BitVec.eq_of_toNat_eq (by simp)
  rw [hlow, Nat.shiftRight_eq_div_pow]
  rfl

theorem sum8_eq_sum_mod (bs : List Byte) : sum8 bs = BitVec.ofNat 8 ((bs.map BitVec.toNat).sum % 256) :=
  BitVec.eq_of_toNat_eq (by simp [sum8, byteSum])

/-- Settles O1: the model's length bytes and checksum byte are the formula's; `encode` is `frame` by definition. -/
theorem encodeIsTheFrameFormula : Obligations.EncodeIsTheFrameFormula := by
  refine ⟨fun cc ss p _ => ⟨frameBody cc ss p, frameBody_eq_shift_mask cc ss p, ?_⟩, fun _ => rfl⟩
  rw [← sum8_eq_sum_mod]
  rfl

/-! ### Reading a frame -/

/-- From offset 6 on a frame is its payload, the checksum byte and the tail. -/
theorem drop_six_frame (cc ss : Byte) (p : List Byte) :
    (frame cc ss p).drop 6 = p ++ [sum8 (frameBody cc ss p), Config.tail0, Config.tail1] := rfl

/-- `data_len`, the field at offset 4, is the payload's length as far as 16 bits hold it. -/
theorem memRead_frame_length (cc ss : Byte) {p : List Byte} (hlen : p.length < 2 ^ 16) :
    memRead (frame cc ss p) 4 2 = some p.length := by
  have hfield : ((frame cc ss p).drop 4).take 2 = [BitVec.ofNat 8 (p.length / 256), BitVec.ofNat 8 p.length] := rfl
  have hvalue : p.length / 256 % 256 * 256 + p.length % 256 = p.length := by omega
  simp [memRead, hfield, bigEndian_two, hvalue]

/-- A field inside the payload reads the same from the frame as from the payload. -/
theorem memRead_frame_payload (cc ss : Byte) {p : List Byte} {j k : Nat} (hfits : j + k ≤ p.length) :
    memRead (frame cc ss p) (6 + j) k = some (fieldAt p j k) := by
  have hbound : 6 + j + k ≤ p.length + 9 := by omega
  have hpayload : ((frame cc ss p).drop (6 + j)).take k = (p.drop j).take k := by
    rw [← List.drop_drop, drop_six_frame, List.drop_append_of_le_length (by omega),
      List.take_append_of_le_length (by rw [List.length_drop]; omega)]
  simp [memRead, hbound, hpayload, fieldAt]

/-- The dispatcher takes a frame apart into the pair and payload it was made of (42 R160). -/
theorem dispatch_frame (cc ss : Byte) {p : List Byte} (hlen : p.length < 2 ^ 16) (s : State) :
    dispatch (frame cc ss p) s = runRom (romLookup cc ss p) s := by
  have hcc : byteAt (frame cc ss p) 2 = cc := rfl
  have hss : byteAt (frame cc ss p) 3 = ss := rfl
  have hbound : 6 + p.length ≤ p.length + 9 := by omega
  simp [dispatch, memRead_frame_length cc ss hlen, hbound, hcc, hss, drop_six_frame]

/-! ### Unknown control words -/

theorem unknownControls_count :
    ((List.range 256).filter fun n => decide (BitVec.ofNat 8 n ∉ knownControls)).length = 250 := by
  decide +kernel

/-- Settles O6: the frame's pair misses every family of the ROM, and the error is one of the dispatcher's. -/
theorem unknownControlWordIsReported : Obligations.UnknownControlWordIsReported := by
  refine ⟨fun c k p s hlen hc => ?_, unknownControls_count⟩
  rw [dispatch_frame c k (by omega), romLookup_unknownControl hc]
  rfl

/-! ### Multi-byte fields -/

theorem fieldAt_two (a b : Byte) (p : List Byte) : fieldAt (a :: b :: p) 0 2 = a.toNat * 256 + b.toNat :=
  bigEndian_two a b

theorem fieldAt_four (a b c d : Byte) (p : List Byte) :
    fieldAt (a :: b :: c :: d :: p) 0 4 = a.toNat * 2 ^ 24 + b.toNat * 2 ^ 16 + c.toNat * 2 ^ 8 + d.toNat := by
  calc fieldAt (a :: b :: c :: d :: p) 0 4
      = ((a.toNat * 256 + b.toNat) * 256 + c.toNat) * 256 + d.toNat := bigEndian_four a b c d
    _ = a.toNat * 2 ^ 24 + b.toNat * 2 ^ 16 + c.toNat * 2 ^ 8 + d.toNat := by omega

/-- The 16-bit field loses nothing of the two bytes. -/
theorem u16Of_toNat (a b : Byte) (p : List Byte) : (u16Of (a :: b :: p)).toNat = a.toNat * 256 + b.toNat := by
  rw [u16Of, fieldAt_two, BitVec.toNat_ofNat]
  omega

/-- The 32-bit field loses nothing of the four bytes. -/
theorem u32Of_toNat (a b c d : Byte) (p : List Byte) :
    (u32Of (a :: b :: c :: d :: p)).toNat = a.toNat * 2 ^ 24 + b.toNat * 2 ^ 16 + c.toNat * 2 ^ 8 + d.toNat := by
  rw [u32Of, fieldAt_four, BitVec.toNat_ofNat]
  omega

/-- Settles O16: a field reads the same from the frame as from the payload, and its word is wide enough for its bytes. -/
theorem multiByteFieldsAreBigEndian : Obligations.MultiByteFieldsAreBigEndian := by
  refine ⟨fun cc ss a b p => ⟨?_, u16Of_toNat a b p⟩, fun cc ss a b c d p => ⟨?_, u32Of_toNat a b c d p⟩, rfl⟩
  · rw [memRead_frame_payload cc ss (j := 0) (by simp), fieldAt_two]
  · rw [memRead_frame_payload cc ss (j := 0) (by simp), fieldAt_four]

end Sys2Proof
end

section
/-! PROOFS of the family 40_checksum_unit: the sum and its comparison (40 R120, R121). The model cuts the summed bytes out of the
list and the spec counts positions; `take_eq_map_byteAt` joins the two. -/

namespace Sys2Proof

open Machine

/-- The first bytes of a list are the bytes read position by position, as long as no position lies beyond the end. -/
theorem take_eq_map_byteAt {bytes : List Byte} {n : Nat} (hn : n ≤ bytes.length) :
    bytes.take n = (List.range n).map (byteAt bytes) := by
  refine List.ext_getElem (by simp [hn]) fun i hi _ => ?_
  have hbound : i < bytes.length := by rw [List.length_take] at hi; omega
  simp [byteAt, hbound]

theorem sum8_toNat (bs : List Byte) : (sum8 bs).toNat = byteSum bs % 256 :=
  BitVec.toNat_ofNat (byteSum bs) 8

/-- The checksum by positions, as 40 R120 writes it. -/
theorem checksum_toNat (bytes : List Byte) :
    (checksum bytes).toNat = ((List.range (bytes.length - 3)).map fun i => (byteAt bytes i).toNat).sum % 256 := by
  rw [checksum, sum8_toNat, take_eq_map_byteAt (Nat.sub_le bytes.length 3), byteSum, List.map_map]
  rfl

theorem verify_eq_true_iff (bytes : List Byte) :
    verify bytes = true ↔ checksum bytes = byteAt bytes (bytes.length - 3) :=
  decide_eq_true_iff

/-- Three bytes leave nothing to sum. -/
theorem checksum_three (k t0 t1 : Byte) : checksum [k, t0, t1] = 0x00#8 :=
  checksum_append_three [] k t0 t1

/-- Settles O42: the sum over positions is the sum of the bytes cut out; the worked examples are evaluated. -/
theorem checksumAndVerifyAreTheSum : Obligations.ChecksumAndVerifyAreTheSum :=
  ⟨fun bytes _ => ⟨checksum_toNat bytes, verify_eq_true_iff bytes⟩, checksum_three, by decide, by decide, by decide⟩

end Sys2Proof
end

section
/-! PROOFS of the family 41_frame_decoder: the rules of the decoder's states (41 R132, R134 to R136, R138 to R141). `acceptByte_inside`
says what storing a byte does, the lemmas on `BlockInv` say where the decoder's registers stand in a state, and `complete_tailStored`
says what completion does with the frame in the buffer. -/

namespace Sys2Proof.Machine

/-! ### Storing a byte and dropping the frame -/

theorem store_inside {a : Nat} {s : State} (ha : a < s.params.bufCap) (b : Byte) :
    store a b s = .next { s with buf := s.buf.write a b, widx := a + 1 } :=
  if_pos ha

/-- Accept and store (41 R130), at an address inside the buffer. -/
theorem acceptByte_inside {a : Nat} {s : State} (ha : a < s.params.bufCap) (b : Byte) (st' : DecState) :
    acceptByte a b st' s = .next { s with buf := s.buf.write a b, widx := a + 1, st := st' } := by
  rw [acceptByte, store_inside ha, andThen_next]

/-- An error of the Frame Decoder, field by field: the event is put out and the frame in progress is dropped. -/
theorem raise_decoder_eq {e : Err} (he : e.ofDecoder = true) (s : State) :
    raise e s = { s with st := .idle, widx := 0, lenStage := 0, cnt := 0, out := s.out ++ [.err e] } :=
  raise_decoder he s

/-! ### The states before the payload -/

/-- Settles O31, on the two branches of the rule. -/
theorem idleTakesOnlyTheFirstHeaderByte : Obligations.IdleTakesOnlyTheFirstHeaderByte := by
  intro b s hst hcap
  have hrx : rx b s = rxIdle b s := by rw [rx, hst]
  rw [hrx, rxIdle]
  constructor
  · intro (hb : b = Config.hdr0)
    rw [if_pos hb, acceptByte_inside (by omega)]
  · intro (hb : b ≠ Config.hdr0)
    rw [if_neg hb]

/-- Settles O33: both rules accept and store, without looking at the byte. -/
theorem controlAndCommandWordsAreStored : Obligations.ControlAndCommandWordsAreStored := by
  intro b s hcap
  constructor
  · intro hst
    have hrx : rx b s = rxReadControl b s := by rw [rx, hst]
    rw [hrx, rxReadControl, acceptByte_inside (by omega)]
  · intro hst
    have hrx : rx b s = rxReadCommand b s := by rw [rx, hst]
    rw [hrx, rxReadCommand, acceptByte_inside (by omega)]

/-- Settles O34, on the two branches of the rule; the abort is the decoder's way of taking an error. -/
theorem highLengthByteIsStagedOrRefused : Obligations.HighLengthByteIsStagedOrRefused := by
  intro b s hst hcap
  have hrx : rx b s = rxReadLenHi b s := by rw [rx, hst]
  rw [hrx, rxReadLenHi]
  constructor
  · intro (hb : b.toNat ≤ Config.lenHiMax)
    have hinside : 4 < s.params.bufCap := by omega
    rw [if_pos hb]
    exact acceptByte_inside (s := { s with lenStage := b.toNat * 256 }) hinside b .readLenLo
  · intro (hb : Config.lenHiMax < b.toNat)
    rw [if_neg (Nat.not_le.mpr hb), raise_decoder_eq rfl]

/-! ### Where the registers of a good state stand once the length is read (10 R21, 41 R144) -/

/-- From `ReadPayload` on, the staged length is an accepted `data_len`. -/
theorem BlockInv.lenStage_le {s : State} (h : BlockInv s) (hst : 6 ≤ s.st.code) : s.lenStage ≤ 32 := by
  have hlen := h.lenStage
  cases hcase : s.st with
  | idle | sawHeader1 | readControl | readCommand | readLenHi | readLenLo =>
    rw [hcase] at hst
    exact absurd hst (by decide)
  | readPayload | readChecksum | sawTail1 | sawTail2 =>
    rw [State.lenStageOk, hcase] at hlen
    exact hlen

theorem BlockInv.readPayload_registers {s : State} (h : BlockInv s) (hst : s.st = .readPayload) :
    1 ≤ s.cnt ∧ s.cnt ≤ s.lenStage ∧ s.lenStage ≤ 32 ∧ s.widx = 6 + (s.lenStage - s.cnt) := by
  obtain ⟨hpos, hle⟩ := h.cnt.1 hst
  have hlen : s.lenStage ≤ 32 := h.lenStage_le (by rw [hst]; decide)
  have hwidx : s.widx = 6 + s.lenStage - s.cnt := by rw [h.widx, State.tableWidx, hst]
  exact ⟨hpos, hle, hlen, by omega⟩

theorem BlockInv.readChecksum_registers {s : State} (h : BlockInv s) (hst : s.st = .readChecksum) :
    s.lenStage ≤ 32 ∧ s.widx = 6 + s.lenStage :=
  ⟨h.lenStage_le (by rw [hst]; decide), by rw [h.widx, State.tableWidx, hst]⟩

theorem BlockInv.sawTail1_registers {s : State} (h : BlockInv s) (hst : s.st = .sawTail1) :
    s.lenStage ≤ 32 ∧ s.widx = 7 + s.lenStage :=
  ⟨h.lenStage_le (by rw [hst]; decide), by rw [h.widx, State.tableWidx, hst]⟩

theorem BlockInv.sawTail2_registers {s : State} (h : BlockInv s) (hst : s.st = .sawTail2) :
    s.lenStage ≤ 32 ∧ s.widx = 8 + s.lenStage :=
  ⟨h.lenStage_le (by rw [hst]; decide), by rw [h.widx, State.tableWidx, hst]⟩

/-- Every frame fits: a write index of at most 40, the last position of the longest frame, is inside the buffer. -/
theorem BlockInv.inside {s : State} (h : BlockInv s) {a : Nat} (ha : a ≤ 40) : a < s.params.bufCap :=
  calc a < Config.maxFrame := Nat.lt_succ_of_le ha
    _ ≤ s.params.bufCap := h.cap

/-! ### Payload, checksum and first tail byte -/

/-- Settles O36: the invariant places the registers, and the countdown alone chooses the next state. -/
theorem payloadBytesAreStoredAndCounted : Obligations.PayloadBytesAreStoredAndCounted := by
  intro b s h hst
  obtain ⟨hpos, hle, hlen, hwidx⟩ := h.readPayload_registers hst
  have hinside : s.widx < s.params.bufCap := h.inside (by omega)
  have hrx : rx b s = rxReadPayload b s := by rw [rx, hst]
  have hstored : rxReadPayload b s = .next { s with
      buf := s.buf.write s.widx b, widx := s.widx + 1, cnt := s.cnt - 1,
      st := if s.cnt - 1 = 0 then .readChecksum else .readPayload } := by
    rw [rxReadPayload, if_neg (by omega)]
    exact acceptByte_inside (s := { s with cnt := s.cnt - 1 }) hinside b _
  refine ⟨hpos, by omega, hwidx, by omega, fun hlast => ?_, fun hmore => ?_⟩
  · rw [hrx, hstored, if_pos (by omega), hlast]
  · rw [hrx, hstored, if_neg (by omega)]

/-- Settles O37: the invariant gives the write index; the rule of `SawTail1` looks at the byte and at nothing else. -/
theorem checksumAndFirstTailByteAreStored : Obligations.ChecksumAndFirstTailByteAreStored := by
  intro b s h
  refine ⟨fun hst => ?_, fun hst (hb : b = Config.tail0) => ?_, fun hst (hb : b ≠ Config.tail0) => ?_⟩
  · obtain ⟨hlen, hwidx⟩ := h.readChecksum_registers hst
    have hrx : rx b s = rxReadChecksum b s := by rw [rx, hst]
    rw [hrx, rxReadChecksum, hwidx, acceptByte_inside (h.inside (by omega))]
  · obtain ⟨hlen, hwidx⟩ := h.sawTail1_registers hst
    have hrx : rx b s = rxSawTail1 b s := by rw [rx, hst]
    rw [hrx, rxSawTail1, if_pos hb, hwidx, acceptByte_inside (h.inside (by omega))]
  · have hrx : rx b s = rxSawTail1 b s := by rw [rx, hst]
    rw [hrx, rxSawTail1, if_neg hb, raise_decoder_eq rfl]

/-! ### Completion -/

/-- No command stops the machine. -/
theorem exec_answers (i : Instr) (s : State) : ∃ t, exec i s = .next t := by
  cases i <;> exact ⟨_, rfl⟩

/-- No answer of the ROM stops the machine: a row runs its command, an unknown pair is reported. -/
theorem runRom_answers (r : RomResult) (s : State) : ∃ t, runRom r s = .next t :=
  match r with
  | .row i => exec_answers i s
  | .unknownControl _ _ => ⟨_, rfl⟩
  | .unknownCommand _ _ => ⟨_, rfl⟩

/-- A field of the snapshot is the buffer's bytes at those addresses. -/
theorem snapshot_field {s : State} {a k : Nat} (hfits : a + k ≤ s.widx) :
    ((snapshot s).drop a).take k = (List.range k).map fun j => s.buf.read (a + j) := by
  refine List.ext_getElem ?_ fun i _ _ => by simp [snapshot]
  simp only [List.length_take, List.length_drop, snapshot_length, List.length_map, List.length_range]
  omega

/-- The dispatcher takes a snapshot apart into the pair and the payload in the buffer, when the length bytes hold the staged
length and the payload has been received (42 R160). -/
theorem dispatch_snapshot {s : State} (hhigh : s.buf.read 4 = 0x00#8) (hlow : (s.buf.read 5).toNat = s.lenStage)
    (hwidx : 6 + s.lenStage ≤ s.widx) (t : State) :
    dispatch (snapshot s) t = runRom (romLookup (s.buf.read 2) (s.buf.read 3) (payloadOf s)) t := by
  have hfield : ((snapshot s).drop 4).take 2 = [s.buf.read 4, s.buf.read 5] := snapshot_field (by omega)
  have hlength : memRead (snapshot s) 4 2 = some s.lenStage := by
    rw [memRead, if_pos (by rw [snapshot_length]; omega), hfield, bigEndian_two, hhigh, hlow]
    simp
  have hpayload : ((snapshot s).drop 6).take s.lenStage = payloadOf s := snapshot_field hwidx
  simp only [dispatch, hlength, snapshot_length, if_pos hwidx, hpayload]
  rw [snapshot_get s (by omega), snapshot_get s (by omega)]

/-- Storing the second tail byte leaves every byte before it. -/
theorem tailStored_read {s : State} {a : Nat} (ha : a < s.widx) : (tailStored s).buf.read a = s.buf.read a :=
  Memory.read_write_other s.buf Config.tail1 (Nat.ne_of_lt ha)

/-- What completion does with the frame in the buffer of a good state (41 R142): a frame that verifies is run, any other one is
reported. -/
theorem complete_tailStored {s : State} (h : BlockInv s) (hst : s.st = .sawTail2) :
    complete (tailStored s) =
      if verify (snapshot (tailStored s)) then
        runRom (romLookup (s.buf.read 2) (s.buf.read 3) (payloadOf (tailStored s))) (tailStored s)
      else .next (raise (.cksum (checksum (snapshot (tailStored s))) (checksumByte (snapshot (tailStored s))))
        (tailStored s)) := by
  obtain ⟨_, hwidx⟩ := h.sawTail2_registers hst
  obtain ⟨_, _, hlength, _⟩ := h.header
  obtain ⟨hhigh, hlow⟩ := hlength (by omega)
  have hwidx' : (tailStored s).widx = 9 + s.lenStage := by
    show s.widx + 1 = _
    omega
  have hdispatch := dispatch_snapshot (s := tailStored s)
    (by rw [tailStored_read (by omega), hhigh])
    (by rw [tailStored_read (by omega), hlow]; rfl)
    (by show 6 + s.lenStage ≤ _; omega) (tailStored s)
  rw [tailStored_read (by omega), tailStored_read (by omega)] at hdispatch
  rw [complete, snapshot_length, if_neg (by omega), hdispatch]

/-- The byte 0x43 in `SawTail2`: the frame is completed, then the decoder clears itself (41 R141). -/
theorem rx_sawTail2_tail1 {s : State} (h : BlockInv s) (hst : s.st = .sawTail2) :
    rx Config.tail1 s = andThen (complete (tailStored s)) fun t => .next t.fdClear := by
  obtain ⟨hlen, hwidx⟩ := h.sawTail2_registers hst
  have hrx : rx Config.tail1 s = rxSawTail2 Config.tail1 s := by rw [rx, hst]
  rw [hrx, rxSawTail2, if_pos rfl, store_inside (h.inside (by omega)), andThen_next]
  rfl

/-- Settles O38: completion answers a next state on both sides of the checksum gate, and the decoder is cleared after it. -/
theorem secondTailByteCompletesOrDiscards : Obligations.SecondTailByteCompletesOrDiscards := by
  intro b s h hst
  constructor
  · rintro rfl
    have hanswers : ∃ u, complete (tailStored s) = .next u := by
      rw [complete_tailStored h hst]
      split
      · exact runRom_answers _ _
      · exact ⟨_, rfl⟩
    obtain ⟨u, hu⟩ := hanswers
    refine ⟨u, hu, ?_⟩
    calc rx 0x43#8 s = andThen (complete (tailStored s)) fun t => .next t.fdClear := rx_sawTail2_tail1 h hst
      _ = .next u.fdClear := by rw [hu, andThen_next]
  · intro (hb : b ≠ Config.tail1)
    have hrx : rx b s = rxSawTail2 b s := by rw [rx, hst]
    rw [hrx, rxSawTail2, if_neg hb, raise_decoder_eq rfl]
    rfl

end Sys2Proof.Machine
end

section
/-! PROOFS of the family 42_dispatch_system_product: the System and Product commands (42 R162). An instruction's effect is said
once, as an equation of `exec`; its row of the ROM is `Laws.RomRow`. -/

namespace Sys2Proof.Machine

/-- The heartbeat reply's effect: `hb` is written, and every other register and the events already put out are those of `s`
(42 R162). -/
@[simp] theorem exec_sysHb (p : List Byte) (s : State) : exec (.sysHb p) s = .next { s with hb := 0x01#8 } := rfl

/-- Settles O8: the ROM's row of the pair, and the effect of the instruction it answers. -/
theorem heartbeatReplySetsHb : Obligations.HeartbeatReplySetsHb :=
  ⟨Laws.RomRow.sysHb, exec_sysHb⟩

end Sys2Proof.Machine
end

section
/-! PROOFS of the family 44_dispatch_openinfo: who writes the dialect and who depends on it (44 R202). Both questions have one
answer, `HandlesDialect`: a part of the block hands the dialect on unread, or replaces it without regard to the old one.
`step_handlesDialect` says so of the step, and the two halves of the statement are read off it. -/

namespace Sys2Proof.Machine

/-! ### Handing the dialect on, or replacing it -/

/-- The state with `d` in the dialect register; with its own dialect it is the state itself. -/
def State.withDialect (d : Dialect) (s : State) : State := { s with dialect := d }

@[simp] theorem State.withDialect_st (d : Dialect) (s : State) : (s.withDialect d).st = s.st := rfl

/-- A state function that neither reads nor writes the dialect. -/
def KeepsDialect (g : State → State) : Prop := ∀ s d, g (s.withDialect d) = (g s).withDialect d

/-- From `s`, `f` either hands the dialect on unread or, which happens only where `W` holds, gives an outcome that is the same for
every dialect. -/
def HandlesDialect (W : Prop) (f : State → Out) (s : State) : Prop :=
  (∀ d, f (s.withDialect d) = andThen (f s) fun t => .next (t.withDialect d)) ∨
  (W ∧ ∀ d, f (s.withDialect d) = f s)

theorem KeepsDialect.comp {g h : State → State} (hh : KeepsDialect h) (hg : KeepsDialect g) :
    KeepsDialect fun s => h (g s) :=
  fun s d => (congrArg h (hg s d)).trans (hh (g s) d)

/-- A part that changes the dialect is a writer: handed on from the state's own dialect, it comes back as it was. -/
theorem HandlesDialect.writes {W : Prop} {f : State → Out} {s t : State} (h : HandlesDialect W f s) (hnext : f s = .next t)
    (hchanged : t.dialect ≠ s.dialect) : W := by
  rcases h with hpass | ⟨hW, _⟩
  · have hself : f s = andThen (f s) fun t => .next (t.withDialect s.dialect) := hpass s.dialect
    rw [hnext, andThen_next] at hself
    injection hself with hsame
    exact absurd (congrArg State.dialect hsame) hchanged
  · exact hW

/-- Nothing depends on the dialect but the dialect. -/
theorem HandlesDialect.outRel_withDialect {W : Prop} {f : State → Out} {s : State} (h : HandlesDialect W f s) (d : Dialect) :
    outRel (fun t u => u = t.withDialect u.dialect) (f s) (f (s.withDialect d)) := by
  rcases h with hpass | ⟨_, hreplace⟩
  · rw [hpass d]
    cases f s <;> rfl
  · rw [hreplace d]
    cases f s <;> rfl

section Rules

variable {W : Prop} {f : State → Out} {g : State → State} {s : State}

theorem KeepsDialect.handlesDialect (hg : KeepsDialect g) : HandlesDialect W (fun s => .next (g s)) s :=
  .inl fun d => congrArg _ (hg s d)

theorem handlesDialect_fault (r : Fault) : HandlesDialect W (fun _ => .fault r) s :=
  .inl fun _ => rfl

theorem HandlesDialect.mono {V : Prop} (h : HandlesDialect V f s) (hVW : V → W) : HandlesDialect W f s :=
  h.imp_right (And.imp_left hVW)

/-- Only the states that differ from `s` in the dialect matter: on them a branch of `f` may stand for `f`. -/
theorem HandlesDialect.congr {f' : State → Out} (h : HandlesDialect W f' s)
    (heq : ∀ d, f (s.withDialect d) = f' (s.withDialect d)) : HandlesDialect W f s := by
  have hself : f s = f' s := heq s.dialect
  simpa only [HandlesDialect, heq, hself] using h

theorem HandlesDialect.bind {f' : State → Out} (h : HandlesDialect W f s)
    (h' : ∀ t, f s = .next t → HandlesDialect W f' t) : HandlesDialect W (fun s => andThen (f s) f') s := by
  rcases h with hpass | ⟨hW, hreplace⟩
  · cases hfs : f s with
    | next t =>
      refine (h' t hfs).imp (fun hpass' d => ?_) (And.imp_right fun hreplace' d => ?_)
      · simpa [hpass d, hfs] using hpass' d
      · simpa [hpass d, hfs] using hreplace' d
    | fault r => exact .inl fun d => by simp [hpass d, hfs]
    | refused r => exact .inl fun d => by simp [hpass d, hfs]
  · exact .inr ⟨hW, fun d => congrArg (andThen · f') (hreplace d)⟩

theorem HandlesDialect.comp_keeps (hg : KeepsDialect g) (h : HandlesDialect W f (g s)) :
    HandlesDialect W (fun s => f (g s)) s :=
  hg.handlesDialect.bind fun t ht => by cases ht; exact h

end Rules

/-! ### The dispatcher's operations keep the dialect -/

theorem emit_keepsDialect (e : Event) : KeepsDialect (State.emit e) :=
  fun _ _ => rfl

theorem publish_keepsDialect (m : Metric) (v : Value) : KeepsDialect (publish m v) :=
  fun _ _ => rfl

theorem fdClear_keepsDialect : KeepsDialect State.fdClear :=
  fun _ _ => rfl

theorem raise_keepsDialect (e : Err) : KeepsDialect (raise e) := by
  intro s d
  unfold raise
  split <;> rfl

theorem publishIfChanged_keepsDialect (m : Slot) (v : BitVec m.width) : KeepsDialect (publishIfChanged m v) := by
  intro s d
  rw [publishIfChanged_eq, publishIfChanged_eq]
  rfl

theorem haveBytes_keepsDialect {f : State → State} (hf : KeepsDialect f) (cc ss : Byte) (p : List Byte) (k : Nat) :
    KeepsDialect (haveBytes cc ss p k f) := by
  intro s d
  unfold haveBytes
  split
  · exact hf s d
  · exact raise_keepsDialect _ s d

theorem checkRange_keepsDialect (cc ss : Byte) (m : Metric) (v : Byte) (lo hi : Nat) :
    KeepsDialect (checkRange cc ss m v lo hi) := by
  intro s d
  unfold checkRange
  split
  · exact publish_keepsDialect _ _ s d
  · exact raise_keepsDialect _ s d

theorem stringField_keepsDialect (cc ss : Byte) (m : Metric) (p : List Byte) : KeepsDialect (stringField cc ss m p) := by
  intro s d
  unfold stringField
  split
  · exact raise_keepsDialect _ s d
  · exact publish_keepsDialect _ _ s d

theorem indexField_keepsDialect (cc ss : Byte) (m : Metric) (lo hi : Nat) (p : List Byte) :
    KeepsDialect (indexField cc ss m lo hi p) :=
  haveBytes_keepsDialect (checkRange_keepsDialect cc ss m _ lo hi) cc ss p 1

/-- A field that is published every time, whatever its type (raw bytes, booleans, distances, the protocol type). -/
theorem publishedField_keepsDialect (cc ss : Byte) (p : List Byte) (k : Nat) (m : Metric) (v : Value) :
    KeepsDialect (haveBytes cc ss p k (publish m v)) :=
  haveBytes_keepsDialect (publish_keepsDialect m v) cc ss p k

/-- A field that goes through its cache slot. -/
theorem slotField_keepsDialect (cc ss : Byte) (p : List Byte) (k : Nat) (m : Slot) (v : BitVec m.width) :
    KeepsDialect (haveBytes cc ss p k (publishIfChanged m v)) :=
  haveBytes_keepsDialect (publishIfChanged_keepsDialect m v) cc ss p k

theorem burstReport_keepsDialect (p : List Byte) : KeepsDialect (burstReport p) :=
  (slotField_keepsDialect _ _ p 5 .motionSpeed _).comp <|
  (slotField_keepsDialect _ _ p 4 .motionDist _).comp <|
  (slotField_keepsDialect _ _ p 3 .spatialMotion _).comp <|
  (publishedField_keepsDialect _ _ p 2 .staticDist _).comp <|
  slotField_keepsDialect _ _ p 1 .spatialStatic _

theorem hbTake_keepsDialect : KeepsDialect hbTake := by
  intro s d
  by_cases hhb : s.hb = 0xFF#8
  · rw [hbTake_uninitialized hhb]
    exact hbTake_uninitialized hhb
  · rw [hbTake_pending hhb]
    exact hbTake_pending hhb

/-! ### The commands: only the output switch replaces the dialect -/

/-- The pair of one of the two output-switch commands (44 R200, R201). -/
def isSwitchPair (c k : Byte) : Prop := c = 0x08#8 ∧ (k = 0x00#8 ∨ k = 0x80#8)

/-- The switch byte alone chooses the new dialect; a short payload leaves the old one. -/
theorem switchField_handlesDialect {W : Prop} (hW : W) (cc ss : Byte) (p : List Byte) (s : State) :
    HandlesDialect W (fun s => .next (switchField cc ss p s)) s := by
  by_cases hlen : 1 ≤ p.length
  · exact .inr ⟨hW, fun d => by simp only [switchField, haveBytes_enough hlen]; rfl⟩
  · refine (emit_keepsDialect (.err (.short cc ss 1 p.length))).handlesDialect.congr fun d => ?_
    rw [switchField, haveBytes_short (Nat.not_le.mp hlen)]

/-- The commands by the form of their operand; the forms keep the dialect, the output switch aside. -/
theorem exec_handlesDialect (i : Instr) (s : State) : HandlesDialect (isSwitchPair i.control i.command) (exec i) s := by
  cases i with
  | oiSw00 p => exact switchField_handlesDialect ⟨rfl, .inl rfl⟩ 0x08#8 0x00#8 p s
  | oiSw80 p => exact switchField_handlesDialect ⟨rfl, .inr rfl⟩ 0x08#8 0x80#8 p s
  | sysHb p => exact .inl fun _ => rfl
  | sysRst p => exact (emit_keepsDialect (.log .resetReply)).handlesDialect
  | prdA1 p | prdA2 p | prdA3 p | prdA4 p => exact (stringField_keepsDialect _ _ _ p).handlesDialect
  | oiBurst01 p => exact (burstReport_keepsDialect p).handlesDialect
  | wsScene01 p | wsScene07 p | wsScene87 p | oiAppr06 p | oiPbd0A p | oiPbd8A p | oiTbd0B p | oiTbd8B p | oiPdist83 p
  | huMot02 p | huMot82 p | huUnm0A p | huUnm8A p | huAppr0B p | huAppr8B p =>
    exact (indexField_keepsDialect _ _ _ _ _ p).handlesDialect
  | prdProto p | wsSens08 p | wsSens88 p | wsInit81 p | drMov01 p | drMov81 p | drSta04 p | drSta84 p | oiJth08 p | oiJth88 p
  | oiAth09 p | oiAth89 p | huPres01 p | huPres81 p =>
    exact (publishedField_keepsDialect _ _ p _ _ _).handlesDialect
  | oiAmpl07 p | oiAmpl87 p | huAmpl03 p | huAmpl83 p | oiTtrig0C p | oiTtrig8C p | oiTrest0D p | oiTrest8D p | oiTunm0E p
  | oiTunm8E p =>
    exact (slotField_keepsDialect _ _ p _ _ _).handlesDialect

/-! ### Completion -/

theorem runRom_romLookup_handlesDialect (c k : Byte) (p : List Byte) (s : State) :
    HandlesDialect (isSwitchPair c k) (runRom (romLookup c k p)) s := by
  cases hrom : romLookup c k p with
  | row i =>
    obtain ⟨rfl, rfl, -⟩ := romLookup_eq_row_iff.mp hrom
    exact exec_handlesDialect i s
  | unknownControl c' k' => exact (raise_keepsDialect (.unkCtrl c' k')).handlesDialect
  | unknownCommand c' k' => exact (raise_keepsDialect (.unkCmd c' k')).handlesDialect

/-- A snapshot that is dispatched at all holds its pair. -/
theorem dispatch_handlesDialect (snap : List Byte) (s : State) :
    HandlesDialect (6 ≤ snap.length ∧ isSwitchPair (byteAt snap 2) (byteAt snap 3)) (dispatch snap) s := by
  unfold dispatch
  cases memRead snap 4 2 with
  | none => exact handlesDialect_fault .snapshotBounds
  | some n =>
    by_cases hlen : 6 + n ≤ snap.length
    · simp only [if_pos hlen]
      exact (runRom_romLookup_handlesDialect _ _ _ s).mono fun hpair => ⟨by omega, hpair⟩
    · simp only [if_neg hlen]
      exact handlesDialect_fault .snapshotBounds

theorem complete_handlesDialect (s : State) :
    HandlesDialect (6 ≤ s.widx ∧ isSwitchPair (s.buf.read 2) (s.buf.read 3)) complete s := by
  by_cases hlen : (snapshot s).length < 3
  · exact (handlesDialect_fault .snapshotBounds).congr fun d => if_pos hlen
  by_cases hverify : verify (snapshot s) = true
  · refine ((dispatch_handlesDialect (snapshot s) s).mono ?_).congr fun d => (if_neg hlen).trans (if_pos hverify)
    rintro ⟨hsix, hpair⟩
    rw [snapshot_length] at hsix
    rw [snapshot_get s (by omega), snapshot_get s (by omega)] at hpair
    exact ⟨hsix, hpair⟩
  · have hreport := raise_keepsDialect (.cksum (checksum (snapshot s)) (checksumByte (snapshot s)))
    exact hreport.handlesDialect.congr fun d => (if_neg hlen).trans (if_neg hverify)

/-! ### The decoder -/

theorem store_handlesDialect {W : Prop} (a : Nat) (b : Byte) (s : State) : HandlesDialect W (store a b) s := by
  have hwrite : KeepsDialect fun s => { s with buf := s.buf.write a b, widx := a + 1 } := fun _ _ => rfl
  by_cases hinside : a < s.params.bufCap
  · exact hwrite.handlesDialect.congr fun d => if_pos hinside
  · exact (handlesDialect_fault .bufferBounds).congr fun d => if_neg hinside

theorem acceptByte_handlesDialect {W : Prop} (a : Nat) (b : Byte) (st' : DecState) (s : State) :
    HandlesDialect W (acceptByte a b st') s := by
  have hgoto : KeepsDialect fun s => { s with st := st' } := fun _ _ => rfl
  exact (store_handlesDialect a b s).bind fun t _ => hgoto.handlesDialect

/-- Accepting a byte after the length registers were written, as the rules of the length and of the payload do. -/
theorem acceptCounted_handlesDialect {W : Prop} (a : Nat) (b : Byte) (st' : DecState) (l c : Nat) (s : State) :
    HandlesDialect W (fun s => acceptByte a b st' { s with lenStage := l, cnt := c }) s := by
  have hcount : KeepsDialect fun s => { s with lenStage := l, cnt := c } := fun _ _ => rfl
  exact (acceptByte_handlesDialect a b st' _).comp_keeps hcount

theorem rxIdle_handlesDialect {W : Prop} (b : Byte) (s : State) : HandlesDialect W (rxIdle b) s := by
  have hdiscard : KeepsDialect fun s => s := fun _ _ => rfl
  by_cases hb : b = Config.hdr0
  · exact (acceptByte_handlesDialect 0 b .sawHeader1 s).congr fun d => if_pos hb
  · exact hdiscard.handlesDialect.congr fun d => if_neg hb

theorem rxSawHeader1_handlesDialect {W : Prop} (b : Byte) (s : State) : HandlesDialect W (rxSawHeader1 b) s := by
  by_cases hb : b = Config.hdr1
  · exact (acceptByte_handlesDialect 1 b .readControl s).congr fun d => if_pos hb
  · exact (raise_keepsDialect (.hdr2 b)).handlesDialect.congr fun d => if_neg hb

theorem rxReadControl_handlesDialect {W : Prop} (b : Byte) (s : State) : HandlesDialect W (rxReadControl b) s :=
  acceptByte_handlesDialect 2 b .readCommand s

theorem rxReadCommand_handlesDialect {W : Prop} (b : Byte) (s : State) : HandlesDialect W (rxReadCommand b) s :=
  acceptByte_handlesDialect 3 b .readLenHi s

theorem rxReadLenHi_handlesDialect {W : Prop} (b : Byte) (s : State) : HandlesDialect W (rxReadLenHi b) s := by
  by_cases hb : b.toNat ≤ Config.lenHiMax
  · exact (acceptCounted_handlesDialect 4 b .readLenLo (b.toNat * 256) s.cnt s).congr fun d => if_pos hb
  · exact (raise_keepsDialect (.lenHi b)).handlesDialect.congr fun d => if_neg hb

theorem rxReadLenLo_handlesDialect {W : Prop} (b : Byte) (s : State) : HandlesDialect W (rxReadLenLo b) s := by
  by_cases ht : s.lenStage + b.toNat ≤ Config.maxPayload
  · exact (acceptCounted_handlesDialect 5 b (if s.lenStage + b.toNat = 0 then .readChecksum else .readPayload)
      (s.lenStage + b.toNat) (s.lenStage + b.toNat) s).congr fun d => if_pos ht
  · exact (raise_keepsDialect (.lenOver (s.lenStage + b.toNat))).handlesDialect.congr fun d => if_neg ht

theorem rxReadPayload_handlesDialect {W : Prop} (b : Byte) (s : State) : HandlesDialect W (rxReadPayload b) s := by
  by_cases hcnt : s.cnt = 0
  · exact (handlesDialect_fault .countdownUnderflow).congr fun d => if_pos hcnt
  · exact (acceptCounted_handlesDialect s.widx b (if s.cnt - 1 = 0 then .readChecksum else .readPayload)
      s.lenStage (s.cnt - 1) s).congr fun d => if_neg hcnt

theorem rxReadChecksum_handlesDialect {W : Prop} (b : Byte) (s : State) : HandlesDialect W (rxReadChecksum b) s := by
  have hrule (d : Dialect) : rxReadChecksum b (s.withDialect d) = acceptByte s.widx b .sawTail1 (s.withDialect d) := rfl
  exact (acceptByte_handlesDialect s.widx b .sawTail1 s).congr hrule

theorem rxSawTail1_handlesDialect {W : Prop} (b : Byte) (s : State) : HandlesDialect W (rxSawTail1 b) s := by
  by_cases hb : b = Config.tail0
  · exact (acceptByte_handlesDialect s.widx b .sawTail2 s).congr fun d => if_pos hb
  · exact (raise_keepsDialect (.tail1 b)).handlesDialect.congr fun d => if_neg hb

/-- Storing the last byte leaves the pair in the buffer, for in a snapshot of six bytes or more it lies behind the pair. -/
theorem storedAndCompleted_handlesDialect (b : Byte) (s : State) :
    HandlesDialect (isSwitchPair (s.buf.read 2) (s.buf.read 3)) (fun t => andThen (store s.widx b t) complete) s := by
  refine (store_handlesDialect s.widx b s).bind fun t hstored => ?_
  obtain ⟨-, rfl⟩ := store_cases hstored
  refine (complete_handlesDialect _).mono ?_
  rintro ⟨(hsix : 6 ≤ s.widx + 1), hpair⟩
  have hread {a : Nat} (ha : a ≤ 3) : (s.buf.write s.widx b).read a = s.buf.read a :=
    Memory.read_write_other s.buf b (by omega)
  rw [hread (by omega), hread (by omega)] at hpair
  exact hpair

theorem rxSawTail2_handlesDialect (b : Byte) (s : State) :
    HandlesDialect (b = Config.tail1 ∧ isSwitchPair (s.buf.read 2) (s.buf.read 3)) (rxSawTail2 b) s := by
  by_cases hb : b = Config.tail1
  · have hcleared := (storedAndCompleted_handlesDialect b s).bind fun t _ => fdClear_keepsDialect.handlesDialect
    exact (hcleared.mono fun hpair => ⟨hb, hpair⟩).congr fun d => if_pos hb
  · exact (fdClear_keepsDialect.comp (raise_keepsDialect (.tail2 b))).handlesDialect.congr fun d => if_neg hb

/-- The byte `b` completes an output-switch frame. -/
def completesSwitch (b : Byte) (s : State) : Prop :=
  s.st = .sawTail2 ∧ b = Config.tail1 ∧ isSwitchPair (s.buf.read 2) (s.buf.read 3)

/-- The rule of the state `st` decides; nine of the ten hand the dialect on. -/
theorem rx_handlesDialect (b : Byte) (s : State) : HandlesDialect (completesSwitch b s) (rx b) s := by
  cases hst : s.st with
  | idle => exact (rxIdle_handlesDialect b s).congr fun d => by rw [rx, State.withDialect_st, hst]
  | sawHeader1 => exact (rxSawHeader1_handlesDialect b s).congr fun d => by rw [rx, State.withDialect_st, hst]
  | readControl => exact (rxReadControl_handlesDialect b s).congr fun d => by rw [rx, State.withDialect_st, hst]
  | readCommand => exact (rxReadCommand_handlesDialect b s).congr fun d => by rw [rx, State.withDialect_st, hst]
  | readLenHi => exact (rxReadLenHi_handlesDialect b s).congr fun d => by rw [rx, State.withDialect_st, hst]
  | readLenLo => exact (rxReadLenLo_handlesDialect b s).congr fun d => by rw [rx, State.withDialect_st, hst]
  | readPayload => exact (rxReadPayload_handlesDialect b s).congr fun d => by rw [rx, State.withDialect_st, hst]
  | readChecksum => exact (rxReadChecksum_handlesDialect b s).congr fun d => by rw [rx, State.withDialect_st, hst]
  | sawTail1 => exact (rxSawTail1_handlesDialect b s).congr fun d => by rw [rx, State.withDialect_st, hst]
  | sawTail2 =>
    have hcompletes := (rxSawTail2_handlesDialect b s).mono (W := completesSwitch b s) (And.intro hst)
    exact hcompletes.congr fun d => by rw [rx, State.withDialect_st, hst]

/-! ### The step -/

theorem hbTake_st (s : State) : (hbTake s).st = s.st := by
  unfold hbTake; split <;> rfl

theorem hbTake_buf (s : State) : (hbTake s).buf = s.buf := by
  unfold hbTake; split <;> rfl

/-- In either order, the heartbeat's side does not touch what makes the byte complete a frame. -/
theorem rxAndTake_handlesDialect (b : Byte) (s : State) : HandlesDialect (completesSwitch b s) (rxAndTake b) s := by
  have hcount : KeepsDialect fun s => { s with choices := s.choices + 1 } := fun _ _ => rfl
  by_cases hfirst : Config.takeFirst s.choices = true
  · have htaken := ((rx_handlesDialect b _).comp_keeps (hbTake_keepsDialect.comp hcount)).congr
      (s := s) (f := rxAndTake b) fun d => if_pos hfirst
    exact htaken.mono fun h => by simpa only [completesSwitch, hbTake_st, hbTake_buf] using h
  · have hreceived := (rx_handlesDialect b _).comp_keeps (s := s) hcount
    exact (hreceived.bind fun t _ => hbTake_keepsDialect.handlesDialect).congr fun d => if_neg hfirst

/-- The writers of the dialect: a completing output-switch frame, and reset. -/
def writesDialect (s : State) : Prop := switchCompletes s ∨ ∃ rest, s.input = .reset :: rest

theorem writesDialect_of_completesSwitch {b : Byte} {s : State} (hnext : nextByte s b) (h : completesSwitch b s) :
    writesDialect s := by
  obtain ⟨hst, rfl, hpair⟩ := h
  exact .inl ⟨hst, hnext, hpair⟩

/-- One request, served with the rest of the requests behind it. -/
theorem serve_handlesDialect {s : State} {r : Request} {rest : List Request} (hin : s.input = r :: rest) :
    HandlesDialect (writesDialect s) (serve r) { s with input := rest, out := [] } := by
  cases r with
  | rx b =>
    exact (rx_handlesDialect b _).mono fun h => writesDialect_of_completesSwitch ⟨rest, .inl hin⟩ h
  | rxAndTake b =>
    exact (rxAndTake_handlesDialect b _).mono fun h => writesDialect_of_completesSwitch ⟨rest, .inr hin⟩ h
  | hbTake => exact hbTake_keepsDialect.handlesDialect
  | reset => exact .inr ⟨.inr ⟨rest, hin⟩, fun _ => rfl⟩

theorem step_handlesDialect (s : State) : HandlesDialect (writesDialect s) step s := by
  cases hin : s.input with
  | nil =>
    have hclear : KeepsDialect fun s => { s with out := [] } := fun _ _ => rfl
    exact hclear.handlesDialect.congr fun d => step_idle hin
  | cons r rest =>
    have htake : KeepsDialect fun s => { s with input := rest, out := [] } := fun _ _ => rfl
    exact ((serve_handlesDialect hin).comp_keeps htake).congr fun d => step_cons hin

/-- Settles O29: what replaces the dialect is a writer, and nothing else looks at it. -/
theorem dialectIsWrittenBySwitchCommandsAndResetOnly : Obligations.DialectIsWrittenBySwitchCommandsAndResetOnly :=
  ⟨fun s _ hnext hchanged => (step_handlesDialect s).writes hnext hchanged,
   fun s d => (step_handlesDialect s).outRel_withDialect d⟩

end Sys2Proof.Machine
end

section
/-! PROOFS of the family 60_exceptions: the two errors of a whole frame, found at its last byte (60 R307, R309). A pair outside the
ROM's rows is `romLookup_unknownCommand`; the checksum gate is `complete_tailStored`, with its comparison read off the buffer. -/

namespace Sys2Proof.Machine

/-! ### A pair without a row -/

/-- Settles O7: the frame is looked up by its own pair, which only the second level of the ROM misses; the error is one of the
dispatcher's, so the decoder keeps its registers. -/
theorem unknownCommandWordIsReported : Obligations.UnknownCommandWordIsReported := by
  intro c k p s hlen hc hpair
  calc dispatch (frame c k p) s = runRom (romLookup c k p) s := dispatch_frame c k (by omega) s
    _ = runRom (.unknownCommand c k) s := by rw [romLookup_unknownCommand hc hpair]
    _ = .next (s.emit (.err (.unkCmd c k))) := rfl

/-! ### The checksum gate -/

/-- The checksum byte of the frame in the buffer stands behind its payload, where storing the tail left it. -/
theorem checksumByte_tailStored {s : State} (h : BlockInv s) (hst : s.st = .sawTail2) :
    checksumByte (snapshot (tailStored s)) = s.buf.read (6 + s.lenStage) := by
  obtain ⟨_, hwidx⟩ := h.sawTail2_registers hst
  have hlength : (snapshot (tailStored s)).length = 9 + s.lenStage := by
    rw [snapshot_length]
    show s.widx + 1 = _
    omega
  have hposition : 9 + s.lenStage - 3 = 6 + s.lenStage := by omega
  have hinside : 6 + s.lenStage < (tailStored s).widx := by
    rw [← snapshot_length, hlength]
    omega
  rw [checksumByte, hlength, hposition, snapshot_get _ hinside, tailStored_read (by omega)]

/-- The gate compares the sum with the byte the buffer holds behind the payload. -/
theorem verify_tailStored_iff {s : State} (h : BlockInv s) (hst : s.st = .sawTail2) :
    verify (snapshot (tailStored s)) = true ↔ checksum (snapshot (tailStored s)) = s.buf.read (6 + s.lenStage) := by
  rw [verify, decide_eq_true_iff, checksumByte_tailStored h hst]

/-- Settles O39: a frame the gate refuses takes the branch of completion that raises `E_CKSUM` and runs nothing of the ROM. -/
theorem checksumMismatchIsNeverDispatched : Obligations.ChecksumMismatchIsNeverDispatched := by
  intro s h hst hmismatch
  have hrefused : ¬ verify (snapshot (tailStored s)) = true := mt (verify_tailStored_iff h hst).mp hmismatch
  have hraised : complete (tailStored s) =
      .next (raise (.cksum (checksum (snapshot (tailStored s))) (s.buf.read (6 + s.lenStage))) (tailStored s)) := by
    rw [complete_tailStored h hst, if_neg hrefused, checksumByte_tailStored h hst]
  calc rx 0x43#8 s = andThen (complete (tailStored s)) fun t => .next t.fdClear := rx_sawTail2_tail1 h hst
    _ = .next (raise (.cksum (checksum (snapshot (tailStored s))) (s.buf.read (6 + s.lenStage))) (tailStored s)).fdClear := by
      rw [hraised, andThen_next]
    _ = _ := by
      rw [raise_decoder_eq rfl]
      rfl

end Sys2Proof.Machine
end

section
/-! PROOFS of the family 70_reset_and_hazards: the dialect forgets only by reset (70 R341). That a step which is not a writer keeps
the dialect is `step_handlesDialect`; what remains is the value the one other writer puts there: the switch byte selects the
standard or the custom protocol, so a known dialect stays known (`KnownDialect`). -/

namespace Sys2Proof.Machine

/-! ### Outcomes with a known dialect -/

/-- If the outcome is a next state, the dialect is known in it. -/
def KnownDialect (o : Out) : Prop := ∀ t, o = .next t → t.dialect ≠ .unknown

@[simp] theorem knownDialect_next (t : State) : KnownDialect (.next t) ↔ t.dialect ≠ .unknown :=
  ⟨fun h => h t rfl, fun h _ ht => by cases ht; exact h⟩

@[simp] theorem knownDialect_fault (r : Fault) : KnownDialect (.fault r) := by
  intro t ht
  cases ht

theorem KnownDialect.andThen {o : Out} {f : State → Out} (ho : KnownDialect o)
    (hf : ∀ t, t.dialect ≠ .unknown → KnownDialect (f t)) : KnownDialect (andThen o f) := by
  intro u hu
  obtain ⟨t, ht, hfu⟩ := andThen_eq_next hu
  exact hf t (ho t ht) u hfu

/-- Where the dialect is known before, only a writer has to be looked at. -/
theorem HandlesDialect.knownDialect {W : Prop} {f : State → Out} {s : State} (h : HandlesDialect W f s)
    (hs : s.dialect ≠ .unknown) (hwriter : W → KnownDialect (f s)) : KnownDialect (f s) := by
  intro t hnext
  by_cases hsame : t.dialect = s.dialect
  · rwa [hsame]
  · exact hwriter (h.writes hnext hsame) t hnext

theorem KeepsDialect.knownDialect {g : State → State} (hg : KeepsDialect g) {s : State} (hs : s.dialect ≠ .unknown) :
    KnownDialect (.next (g s)) :=
  (hg.handlesDialect (W := False)).knownDialect hs False.elim

/-! ### The output switch writes a known dialect -/

theorem dialectOf_known (b : Byte) : dialectOf b ≠ .unknown := by
  unfold dialectOf
  split <;> nofun

theorem switchField_knownDialect (cc ss : Byte) (p : List Byte) {s : State} (hs : s.dialect ≠ .unknown) :
    (switchField cc ss p s).dialect ≠ .unknown := by
  by_cases hlen : 1 ≤ p.length
  · rw [switchField, haveBytes_enough hlen, publish_dialect]
    exact dialectOf_known (byteAt p 0)
  · rw [switchField, haveBytes_short (Nat.not_le.mp hlen), State.emit_dialect]
    exact hs

/-- Of the ROM's answers only the rows of the output switch write the dialect. -/
theorem runRom_romLookup_knownDialect (c k : Byte) (p : List Byte) {s : State} (hs : s.dialect ≠ .unknown) :
    KnownDialect (runRom (romLookup c k p) s) := by
  refine (runRom_romLookup_handlesDialect c k p s).knownDialect hs ?_
  rintro ⟨rfl, rfl | rfl⟩
  · exact (knownDialect_next _).mpr (switchField_knownDialect 0x08#8 0x00#8 p hs)
  · exact (knownDialect_next _).mpr (switchField_knownDialect 0x08#8 0x80#8 p hs)

/-! ### From the completed frame to the step -/

theorem dispatch_knownDialect (snap : List Byte) {s : State} (hs : s.dialect ≠ .unknown) :
    KnownDialect (dispatch snap s) := by
  unfold dispatch
  cases memRead snap 4 2 with
  | none => exact knownDialect_fault .snapshotBounds
  | some n =>
    by_cases hlen : 6 + n ≤ snap.length
    · simp only [if_pos hlen]
      exact runRom_romLookup_knownDialect _ _ _ hs
    · simp only [if_neg hlen, knownDialect_fault]

theorem complete_knownDialect {s : State} (hs : s.dialect ≠ .unknown) : KnownDialect (complete s) := by
  unfold complete
  split
  · exact knownDialect_fault .snapshotBounds
  split
  · exact dispatch_knownDialect (snapshot s) hs
  · exact (raise_keepsDialect _).knownDialect hs

/-- Only completion writes the dialect; storing the byte before it and the return to `Idle` after it keep what is there. -/
theorem rx_knownDialect (b : Byte) {s : State} (hs : s.dialect ≠ .unknown) : KnownDialect (rx b s) := by
  refine (rx_handlesDialect b s).knownDialect hs ?_
  rintro ⟨hst, rfl, -⟩
  have hrule : rx Config.tail1 s =
      andThen (andThen (store s.widx Config.tail1 s) complete) fun t => .next t.fdClear := by
    rw [rx, hst]
    exact if_pos rfl
  have hstored : KnownDialect (store s.widx Config.tail1 s) :=
    (store_handlesDialect (W := False) s.widx Config.tail1 s).knownDialect hs False.elim
  rw [hrule]
  exact (hstored.andThen fun _ => complete_knownDialect).andThen fun _ => fdClear_keepsDialect.knownDialect

theorem rxAndTake_knownDialect (b : Byte) {s : State} (hs : s.dialect ≠ .unknown) : KnownDialect (rxAndTake b s) := by
  have htake {t : State} (ht : t.dialect ≠ .unknown) : KnownDialect (.next (hbTake t)) := hbTake_keepsDialect.knownDialect ht
  unfold rxAndTake
  split
  · exact rx_knownDialect b ((knownDialect_next _).mp (htake hs))
  · refine KnownDialect.andThen (rx_knownDialect b ?_) fun _ => htake
    exact hs

/-- The invariant of 70 R341: without a reset a known dialect stays known. -/
theorem step_knownDialect {s : State} (hs : s.dialect ≠ .unknown) (hreset : ¬ ∃ rest, s.input = .reset :: rest) :
    KnownDialect (step s) := by
  refine (step_handlesDialect s).knownDialect hs fun hwrites => ?_
  obtain ⟨-, ⟨rest, hrx | hrxAndTake⟩, -⟩ := hwrites.resolve_right hreset
  · rw [step_cons hrx]
    exact rx_knownDialect _ hs
  · rw [step_cons hrxAndTake]
    exact rxAndTake_knownDialect _ hs

/-! ### Reset -/

theorem step_reset {s : State} {rest : List Request} (hin : s.input = .reset :: rest) :
    step s = .next (resetBlock { s with input := rest, out := [] }) :=
  step_cons hin

/-- From `Unknown`, reset is no way out: it leaves the dialect `Unknown`. -/
theorem switchCompletes_of_leaves_unknown {s t : State} (hnext : step s = .next t) (hs : s.dialect = .unknown)
    (ht : t.dialect ≠ .unknown) : switchCompletes s := by
  have hwrites : writesDialect s := (step_handlesDialect s).writes hnext (hs ▸ ht)
  refine hwrites.resolve_right ?_
  rintro ⟨rest, hin⟩
  rw [step_reset hin] at hnext
  cases hnext
  exact ht (resetBlock_dialect _)

/-- Settles O49: a step that forgets a known dialect serves a reset, by the invariant; the `SYS_RST` frame only logs. -/
theorem dialectReturnsToUnknownOnlyByReset : Obligations.DialectReturnsToUnknownOnlyByReset :=
  ⟨fun _ _ hin => ⟨_, step_reset hin, resetBlock_dialect _⟩,
   fun _ t hnext hs ht => by_contra fun hreset => step_knownDialect hs hreset t hnext ht,
   fun _ _ => switchCompletes_of_leaves_unknown,
   fun _ s => ⟨logNote .resetReply s, rfl, rfl, rfl, rfl, rfl⟩⟩

end Sys2Proof.Machine
end

section
/-! PROOFS of the round trip between instructions and their bytes (30 section 6). `decode_frame` says what the decoder answers for a
frame, `decode_eq_instr` that nothing else decodes to an instruction; both directions of the round trip, and the step that runs a
decoded instruction, are read off these two. -/

namespace Sys2Proof

open Machine

/-! ### Decoding a frame -/

/-- A frame, byte by byte up to its payload. -/
theorem frame_eq_cons (cc ss : Byte) (p : List Byte) :
    frame cc ss p = Config.hdr0 :: Config.hdr1 :: cc :: ss :: BitVec.ofNat 8 (p.length / 256) :: BitVec.ofNat 8 p.length ::
      (p ++ [sum8 (frameBody cc ss p), Config.tail0, Config.tail1]) := rfl

/-- Behind a payload with the right tail only the checksum is left to look at. -/
theorem decodeRest_tail (bs : List Byte) (cc ss : Byte) (p : List Byte) (k : Byte) :
    decodeRest bs cc ss p.length (p ++ [k, Config.tail0, Config.tail1]) =
      if verify bs then (romLookup cc ss p).decoded else .reject .badChecksum := by
  have htail0 : byteAt (p ++ [k, Config.tail0, Config.tail1]) (p.length + 1) = Config.tail0 := by simp [byteAt]
  have htail1 : byteAt (p ++ [k, Config.tail0, Config.tail1]) (p.length + 2) = Config.tail1 := by simp [byteAt]
  simp [decodeRest, htail0, htail1]

/-- The decoder answers for a frame what the ROM answers for its pair and payload. -/
theorem decode_frame (cc ss : Byte) {p : List Byte} (hlen : p.length ≤ 32) :
    decode (frame cc ss p) = (romLookup cc ss p).decoded := by
  have hhigh : (BitVec.ofNat 8 (p.length / 256)).toNat = 0 := by rw [BitVec.toNat_ofNat]; omega
  have hlow : (BitVec.ofNat 8 p.length).toNat = p.length := by rw [BitVec.toNat_ofNat]; omega
  have hmax : ¬ Config.maxPayload < p.length := Nat.not_lt.mpr hlen
  have hrest := decodeRest_tail (frame cc ss p) cc ss p (sum8 (frameBody cc ss p))
  rw [verify_frame, if_pos rfl] at hrest
  rw [frame_eq_cons, decode, ← frame_eq_cons]
  simp [hhigh, hlow, hmax, hrest]

/-- Decoding inverts encoding. -/
theorem decode_encode {i : Instr} (hlen : i.payload.length ≤ 32) : decode (encode i) = .instr i := by
  rw [encode, decode_frame _ _ hlen, romLookup_row_own]
  rfl

/-- Settles O2: the decoder asks the ROM, which answers each row for its own pair. -/
theorem decodeOfEncodeIsIdentity : Obligations.DecodeOfEncodeIsIdentity :=
  fun _ hfits => decode_encode (of_decide_eq_true hfits)

/-- Settles O4: the first six frames are encodings, written out; the pair of the last is no row of the ROM. -/
theorem specFramesDecode : Obligations.SpecFramesDecode :=
  ⟨decode_encode (i := .sysHb [0x0F#8]) (by decide), decode_encode (i := .prdA2 [0x41#8, 0x42#8]) (by decide),
   decode_encode (i := .wsScene07 [0x05#8]) (by decide), decode_encode (i := .drMov01 [0x01#8, 0x2C#8]) (by decide),
   decode_encode (i := .oiSw80 [0x0F#8]) (by decide), decode_encode (i := .huAmpl83 [0x50#8]) (by decide),
   decode_frame 0x08#8 0x81#8 (p := [0x00#8]) (by decide)⟩

/-! ### What decodes to an instruction -/

theorem decoded_eq_instr {r : RomResult} {i : Instr} (h : r.decoded = .instr i) : r = .row i := by
  cases r <;> cases h
  rfl

/-- The checks after the length let only a payload with a right checksum and the tail through. -/
theorem decodeRest_eq_instr {bs rest : List Byte} {cc ss : Byte} {n : Nat} {i : Instr}
    (h : decodeRest bs cc ss n rest = .instr i) :
    ∃ p k, p.length = n ∧ rest = p ++ [k, Config.tail0, Config.tail1] ∧ verify bs = true ∧ romLookup cc ss p = .row i := by
  by_cases hsize : rest.length = n + 3
  · obtain ⟨k, t0, t1, hdrop⟩ : ∃ k t0 t1, rest.drop n = [k, t0, t1] := List.length_eq_three.mp (by simp [hsize])
    have hsplit : rest = rest.take n ++ [k, t0, t1] := by rw [← hdrop, List.take_append_drop]
    have htake : (rest.take n).length = n := by simp [hsize]
    have ht0 : byteAt rest (n + 1) = t0 := by rw [hsplit]; simp [byteAt, htake]
    have ht1 : byteAt rest (n + 2) = t1 := by rw [hsplit]; simp [byteAt, htake]
    rw [decodeRest, ht0, ht1] at h
    split_ifs at h with _ htail0 htail1 hverify
    rw [not_not.mp htail0, not_not.mp htail1] at hsplit
    exact ⟨rest.take n, k, htake, hsplit, hverify, decoded_eq_instr h⟩
  · simp [decodeRest, hsize] at h

/-- Only a frame whose payload fits and whose pair is a row decodes to an instruction. -/
theorem decode_eq_instr {bs : List Byte} {i : Instr} (h : decode bs = .instr i) :
    ∃ cc ss p, p.length ≤ 32 ∧ bs = frame cc ss p ∧ romLookup cc ss p = .row i := by
  unfold decode at h
  split at h
  next h0 h1 cc ss ll lo rest =>
    split_ifs at h with hhdr0 hhdr1 hhigh hover
    obtain ⟨p, k, hlen, rfl, hverify, hrow⟩ := decodeRest_eq_instr h
    simp only [Config.maxPayload] at hover
    have hll : ll = BitVec.ofNat 8 (p.length / 256) := BitVec.eq_of_toNat_eq (by rw [BitVec.toNat_ofNat]; omega)
    have hlo : lo = BitVec.ofNat 8 p.length := BitVec.eq_of_toNat_eq (by rw [BitVec.toNat_ofNat]; omega)
    have hbody : h0 :: h1 :: cc :: ss :: ll :: lo :: (p ++ [k, Config.tail0, Config.tail1]) =
        frameBody cc ss p ++ [k, Config.tail0, Config.tail1] := by
      rw [not_not.mp hhdr0, not_not.mp hhdr1, hll, hlo]
      rfl
    rw [hbody, verify_append_three, decide_eq_true_iff] at hverify
    refine ⟨cc, ss, p, by omega, ?_, hrow⟩
    rw [hbody, frame, hverify]
  next => cases h

/-- Settles O3: the frame that decodes carries the pair and payload of the row the ROM answers. -/
theorem decodedBytesAreTheEncoding : Obligations.DecodedBytesAreTheEncoding := by
  intro bs i h
  obtain ⟨cc, ss, p, hlen, rfl, hrow⟩ := decode_eq_instr h
  obtain ⟨rfl, rfl, rfl⟩ := romLookup_eq_row_iff.mp hrow
  exact ⟨decide_eq_true hlen, rfl⟩

end Sys2Proof
end

section
/-! PROOFS about the commands' operands (30 section 3; 42 to 45; 60 R310 to R312). Each operand form has a rule for the payload that
holds its field and one for the payload that does not; a command's effect is its form's rule, its row of the ROM is `Laws.RomRow`. -/

namespace Sys2Proof.Machine

open Laws

theorem next_congr {s t : State} (h : s = t) : (.next s : Out) = .next t := congrArg Host.Outcome.next h

/-! ### The operand forms -/

theorem indexField_published {b : Byte} {lo hi : Nat} (hb : lo ≤ b.toNat ∧ b.toNat ≤ hi) (cc ss : Byte) (m : Metric)
    (p : List Byte) (s : State) : indexField cc ss m lo hi (b :: p) s = s.emit (.pub m (.idx b)) :=
  (haveBytes_enough (Nat.le_add_left 1 p.length) _ s).trans (if_pos hb)

theorem indexField_refused {b : Byte} {lo hi : Nat} (hb : b.toNat < lo ∨ hi < b.toNat) (cc ss : Byte) (m : Metric)
    (p : List Byte) (s : State) : indexField cc ss m lo hi (b :: p) s = s.emit (.err (.range cc ss b)) :=
  (haveBytes_enough (Nat.le_add_left 1 p.length) _ s).trans (if_neg (by show ¬ (_ ≤ b.toNat ∧ b.toNat ≤ _); omega))

/-- A field of one byte that is published every time. -/
theorem haveBytes_publish_cons (cc ss b : Byte) (m : Metric) (v : Value) (p : List Byte) (s : State) :
    haveBytes cc ss (b :: p) 1 (publish m v) s = s.emit (.pub m v) :=
  haveBytes_enough (Nat.le_add_left 1 p.length) _ s

theorem distanceField_cons (cc ss a b : Byte) (m : Metric) (p : List Byte) (s : State) :
    distanceField cc ss m (a :: b :: p) s = s.emit (.pub m (.u16 (u16Of (a :: b :: p)))) :=
  haveBytes_enough (Nat.le_add_left 2 p.length) _ s

theorem amplitudeField_cons (cc ss b : Byte) (p : List Byte) (s : State) :
    amplitudeField cc ss (b :: p) s = publishIfChanged .moveAmpl b s :=
  haveBytes_enough (Nat.le_add_left 1 p.length) _ s

theorem timerField_cons (cc ss a b c d : Byte) (m : Slot) (v : BitVec m.width) (p : List Byte) (s : State) :
    timerField cc ss m v (a :: b :: c :: d :: p) s = publishIfChanged m v s :=
  haveBytes_enough (Nat.le_add_left 4 p.length) _ s

theorem switchField_cons (cc ss b : Byte) (p : List Byte) (s : State) :
    switchField cc ss (b :: p) s =
      { s with dialect := dialectOf b, out := s.out ++ [.pub .outputSwitch (.bool (boolOf b))] } :=
  haveBytes_enough (Nat.le_add_left 1 p.length) _ s

theorem stringField_published {p : List Byte} (hlen : p.length ≤ 32) (cc ss : Byte) (m : Metric) (s : State) :
    stringField cc ss m p s = s.emit (.pub m (.bytes p)) :=
  if_neg (Nat.not_lt.mpr hlen)

theorem stringField_refused {p : List Byte} (hlen : 32 < p.length) (cc ss : Byte) (m : Metric) (s : State) :
    stringField cc ss m p s = s.emit (.err (.overstr cc ss p.length)) :=
  if_pos hlen

/-! ### The values -/

theorem toNat_eq_zero_iff (b : Byte) : b.toNat = 0 ↔ b = 0x00#8 := (BitVec.toNat_eq (y := 0x00#8)).symm

theorem boolOf_eq_ite (b : Byte) : boolOf b = if b.toNat = 0 then false else true := by
  by_cases hb : b = 0x00#8 <;> simp [boolOf, toNat_eq_zero_iff, hb]

theorem dialectOf_zero {b : Byte} (hb : b.toNat = 0) : dialectOf b = .standardProtocol :=
  if_neg (not_not.mpr ((toNat_eq_zero_iff b).mp hb))

theorem dialectOf_nonzero {b : Byte} (hb : b.toNat ≠ 0) : dialectOf b = .customProtocol :=
  if_pos (mt (toNat_eq_zero_iff b).mpr hb)

theorem protocolOf_one {b : Byte} (hb : b.toNat = 1) : protocolOf b = .common :=
  if_pos (BitVec.eq_of_toNat_eq hb)

theorem protocolOf_three {b : Byte} (hb : b.toNat = 3) : protocolOf b = .tuyaWifi := by
  rw [BitVec.eq_of_toNat_eq (y := 0x03#8) hb]
  rfl

theorem protocolOf_other {b : Byte} (h1 : b.toNat ≠ 1) (h3 : b.toNat ≠ 3) : protocolOf b = .unknown := by
  have hne1 : b ≠ 0x01#8 := mt (congrArg BitVec.toNat) h1
  have hne3 : b ≠ 0x03#8 := mt (congrArg BitVec.toNat) h3
  rw [protocolOf, if_neg hne1, if_neg hne3]

/-! ### System and Product families -/

/-- Settles O9: the instruction is the log event. -/
theorem resetReplyOnlyLogs : Obligations.ResetReplyOnlyLogs :=
  ⟨RomRow.sysRst, fun _ _ => rfl⟩

/-- Settles O10: the string form below its cap. -/
theorem productStringsPublishThePayload : Obligations.ProductStringsPublishThePayload :=
  ⟨RomRow.prdA1, RomRow.prdA2, RomRow.prdA3, RomRow.prdA4, fun _ s hlen =>
    ⟨next_congr (stringField_published hlen _ _ _ s), next_congr (stringField_published hlen _ _ _ s),
     next_congr (stringField_published hlen _ _ _ s), next_congr (stringField_published hlen _ _ _ s)⟩⟩

/-- Settles O11: the string form above its cap. -/
theorem overlongProductStringIsReported : Obligations.OverlongProductStringIsReported :=
  fun _ s hlen =>
    ⟨next_congr (stringField_refused hlen _ _ _ s), next_congr (stringField_refused hlen _ _ _ s),
     next_congr (stringField_refused hlen _ _ _ s), next_congr (stringField_refused hlen _ _ _ s)⟩

/-- Settles O12: the code alone chooses the type. -/
theorem protocolTypeCodesArePublished : Obligations.ProtocolTypeCodesArePublished :=
  ⟨RomRow.prdProto, fun b p s => ⟨protocolOf b, protocolOf_one, protocolOf_three, fun ⟨h1, h3⟩ => protocolOf_other h1 h3,
    next_congr (haveBytes_publish_cons _ _ b _ _ p s)⟩⟩

/-! ### WorkStatus and DetectionRange families -/

/-- Settles O13: the index form inside its range. -/
theorem sceneIndexIsPublished : Obligations.SceneIndexIsPublished :=
  ⟨RomRow.wsScene01, RomRow.wsScene07, RomRow.wsScene87, fun _ p s hlo hhi =>
    ⟨next_congr (indexField_published ⟨hlo, hhi⟩ _ _ _ p s), next_congr (indexField_published ⟨hlo, hhi⟩ _ _ _ p s),
     next_congr (indexField_published ⟨hlo, hhi⟩ _ _ _ p s)⟩⟩

/-- Settles O14: the byte itself, and the byte as a boolean. -/
theorem sensitivityAndInitCompleteArePublished : Obligations.SensitivityAndInitCompleteArePublished := by
  refine ⟨RomRow.wsSens08, RomRow.wsSens88, RomRow.wsInit81, fun b p s => ?_⟩
  rw [← boolOf_eq_ite]
  exact ⟨next_congr (haveBytes_publish_cons _ _ b _ _ p s), next_congr (haveBytes_publish_cons _ _ b _ _ p s),
    next_congr (haveBytes_publish_cons _ _ b _ _ p s)⟩

/-- Settles O15: the distance form; its word is wide enough for both bytes. -/
theorem maximumDistancesArePublished : Obligations.MaximumDistancesArePublished :=
  ⟨RomRow.drMov01, RomRow.drMov81, RomRow.drSta04, RomRow.drSta84, fun a b p s =>
    ⟨u16Of (a :: b :: p), u16Of_toNat a b p,
     next_congr (distanceField_cons _ _ a b _ p s), next_congr (distanceField_cons _ _ a b _ p s),
     next_congr (distanceField_cons _ _ a b _ p s), next_congr (distanceField_cons _ _ a b _ p s)⟩⟩

/-! ### OpenInfo family -/

/-- Settles O17: the switch byte chooses both the dialect and the boolean. -/
theorem outputSwitchWritesTheDialect : Obligations.OutputSwitchWritesTheDialect := by
  refine ⟨RomRow.oiSw00, RomRow.oiSw80, fun b p s => ⟨dialectOf b, boolOf b, fun hb => ?_, fun hb => ?_,
    next_congr (switchField_cons _ _ b p s), next_congr (switchField_cons _ _ b p s)⟩⟩
  · exact ⟨dialectOf_nonzero hb, by rw [boolOf_eq_ite, if_neg hb]⟩
  · exact ⟨dialectOf_zero hb, by rw [boolOf_eq_ite, if_pos hb]⟩

/-- Settles O20: the index form with the bounds 0 and 2. -/
theorem approachStateIsPublished : Obligations.ApproachStateIsPublished :=
  ⟨RomRow.oiAppr06, RomRow.huAppr0B, RomRow.huAppr8B, fun b p s hhi =>
    have hb : 0 ≤ b.toNat ∧ b.toNat ≤ 2 := ⟨Nat.zero_le _, hhi⟩
    ⟨next_congr (indexField_published hb _ _ _ p s), next_congr (indexField_published hb _ _ _ p s),
     next_congr (indexField_published hb _ _ _ p s)⟩⟩

/-- Settles O21: the four commands are the same call of `publish_if_changed`. -/
theorem amplitudeGoesThroughTheSharedSlot : Obligations.AmplitudeGoesThroughTheSharedSlot := by
  refine ⟨RomRow.oiAmpl07, RomRow.oiAmpl87, RomRow.huAmpl03, RomRow.huAmpl83, fun b p s t ht => ?_⟩
  have hfield (cc ss : Byte) : amplitudeField cc ss (b :: p) s = t := by
    rw [amplitudeField_cons, ht, publishIfChanged_moveAmpl]
  exact ⟨next_congr (hfield _ _), next_congr (hfield _ _), next_congr (hfield _ _), next_congr (hfield _ _)⟩

/-- Settles O22: the raw form. -/
theorem thresholdsArePublishedRaw : Obligations.ThresholdsArePublishedRaw :=
  ⟨RomRow.oiJth08, RomRow.oiJth88, RomRow.oiAth09, RomRow.oiAth89, fun b p s =>
    ⟨next_congr (haveBytes_publish_cons _ _ b _ _ p s), next_congr (haveBytes_publish_cons _ _ b _ _ p s),
     next_congr (haveBytes_publish_cons _ _ b _ _ p s), next_congr (haveBytes_publish_cons _ _ b _ _ p s)⟩⟩

/-- Settles O23: the index form with the bounds of the two tables. -/
theorem boundariesAndPresenceDistanceArePublished : Obligations.BoundariesAndPresenceDistanceArePublished :=
  ⟨RomRow.oiPbd0A, RomRow.oiPbd8A, RomRow.oiTbd0B, RomRow.oiTbd8B, RomRow.oiPdist83,
   fun _ p s hlo hhi =>
    ⟨next_congr (indexField_published ⟨hlo, hhi⟩ _ _ _ p s), next_congr (indexField_published ⟨hlo, hhi⟩ _ _ _ p s),
     next_congr (indexField_published ⟨hlo, hhi⟩ _ _ _ p s), next_congr (indexField_published ⟨hlo, hhi⟩ _ _ _ p s)⟩,
   fun _ p s hhi => next_congr (indexField_published ⟨Nat.zero_le _, hhi⟩ _ _ _ p s)⟩

/-- Settles O24: the timer form, on its slot of the cache. -/
theorem timersGoThroughTheirSlots : Obligations.TimersGoThroughTheirSlots := by
  refine ⟨RomRow.oiTtrig0C, RomRow.oiTtrig8C, RomRow.oiTrest0D, RomRow.oiTrest8D, RomRow.oiTunm0E, RomRow.oiTunm8E,
    fun a b c d p s => ⟨u32Of (a :: b :: c :: d :: p), u32Of_toNat a b c d p, ?_, ?_, ?_⟩⟩
  · rintro t rfl
    rw [← publishIfChanged_triggerTime]
    exact ⟨next_congr (timerField_cons _ _ a b c d _ _ p s), next_congr (timerField_cons _ _ a b c d _ _ p s)⟩
  · rintro t rfl
    rw [← publishIfChanged_restTime]
    exact ⟨next_congr (timerField_cons _ _ a b c d _ _ p s), next_congr (timerField_cons _ _ a b c d _ _ p s)⟩
  · rintro t rfl
    rw [← publishIfChanged_unmannedTime]
    exact ⟨next_congr (timerField_cons _ _ a b c d _ _ p s), next_congr (timerField_cons _ _ a b c d _ _ p s)⟩

/-! ### Human family -/

/-- Settles O25: the boolean form, and the index form with the bounds of the two enumerations. -/
theorem presenceMotionAndDurationArePublished : Obligations.PresenceMotionAndDurationArePublished := by
  refine ⟨RomRow.huPres01, RomRow.huPres81, RomRow.huMot02, RomRow.huMot82, RomRow.huUnm0A, RomRow.huUnm8A, fun b p s => ?_⟩
  rw [← boolOf_eq_ite]
  refine ⟨next_congr (haveBytes_publish_cons _ _ b _ _ p s), next_congr (haveBytes_publish_cons _ _ b _ _ p s),
    fun hhi => ?_, fun hhi => ?_⟩
  · have hb : 0 ≤ b.toNat ∧ b.toNat ≤ 2 := ⟨Nat.zero_le _, hhi⟩
    exact ⟨next_congr (indexField_published hb _ _ _ p s), next_congr (indexField_published hb _ _ _ p s)⟩
  · have hb : 0 ≤ b.toNat ∧ b.toNat ≤ 8 := ⟨Nat.zero_le _, hhi⟩
    exact ⟨next_congr (indexField_published hb _ _ _ p s), next_congr (indexField_published hb _ _ _ p s)⟩

/-! ### Per-field errors -/

/-- Settles O26: the index form outside its range, with each command's bounds. -/
theorem outOfRangeIndexIsReported : Obligations.OutOfRangeIndexIsReported := by
  intro b p s e he
  have hrefused {lo hi : Nat} (hb : b.toNat < lo ∨ hi < b.toNat) (m : Metric) (cc ss : Byte) :
      (.next (indexField cc ss m lo hi (b :: p) s) : Out) = .next (e cc ss) :=
    next_congr ((indexField_refused hb cc ss m p s).trans (he cc ss).symm)
  refine ⟨fun hb => ?_, fun hb => ?_, fun hb => ?_, fun hb => ?_, fun hb => ?_⟩
  · have hout : b.toNat < 1 ∨ 4 < b.toNat := by omega
    exact ⟨hrefused hout _ _ _, hrefused hout _ _ _, hrefused hout _ _ _⟩
  · have hout : b.toNat < 1 ∨ 10 < b.toNat := by omega
    exact ⟨hrefused hout _ _ _, hrefused hout _ _ _, hrefused hout _ _ _, hrefused hout _ _ _⟩
  · exact hrefused (.inr hb) _ _ _
  · exact ⟨hrefused (.inr hb) _ _ _, hrefused (.inr hb) _ _ _, hrefused (.inr hb) _ _ _, hrefused (.inr hb) _ _ _,
      hrefused (.inr hb) _ _ _⟩
  · exact ⟨hrefused (.inr hb) _ _ _, hrefused (.inr hb) _ _ _⟩

/-- Settles O27: every form but the string begins with `have(k)`, where `k` is the width of the form's field. -/
theorem shortPayloadIsReported : Obligations.ShortPayloadIsReported := by
  rintro i s k rfl hshort
  cases i with
  | sysHb p | sysRst p | prdA1 p | prdA2 p | prdA3 p | prdA4 p | oiBurst01 p => exact absurd hshort (Nat.not_lt_zero _)
  | drMov01 p | drMov81 p | drSta04 p | drSta84 p => exact next_congr (haveBytes_short hshort _ s)
  | oiTtrig0C p | oiTtrig8C p | oiTrest0D p | oiTrest8D p | oiTunm0E p | oiTunm8E p =>
    exact next_congr (haveBytes_short hshort _ s)
  | _ p => exact next_congr (haveBytes_short hshort _ s)

/-! ### The burst report -/

/-- With all five fields inside the payload none is reported short. -/
theorem burstReport_cons (a b c d e : Byte) (p : List Byte) (s : State) :
    burstReport (a :: b :: c :: d :: e :: p) s =
      publishIfChanged .motionSpeed (speedOf e) (publishIfChanged .motionDist d (publishIfChanged .spatialMotion c
        (publish .staticDist (.half8 b) (publishIfChanged .spatialStatic a s)))) := by
  have hinside {k : Nat} (hk : k ≤ 5) : k ≤ (a :: b :: c :: d :: e :: p).length := hk.trans (Nat.le_add_left 5 p.length)
  rw [burstReport, haveBytes_enough (hinside (by decide)), haveBytes_enough (hinside (by decide)),
    haveBytes_enough (hinside (by decide)), haveBytes_enough (hinside (by decide)), haveBytes_enough (hinside (by decide))]
  rfl

/-- Settles O18: all five fields are inside the payload, and each slot is written apart from the others. -/
theorem burstReportPublishesFiveFields : Obligations.BurstReportPublishesFiveFields := by
  refine ⟨RomRow.oiBurst01, fun a b c d e p s => ⟨speedOf e, speedOf_toInt e, next_congr ?_⟩⟩
  rw [burstReport_cons, publishIfChanged_motionSpeed, publishIfChanged_motionDist, publishIfChanged_spatialMotion,
    publishIfChanged_spatialStatic]
  rfl

/-- Settles O19: the length decides for each field which branch of `have(k)` is taken. -/
theorem shortBurstReportDecodesWhatIsThere : Obligations.ShortBurstReportDecodesWhatIsThere := by
  intro p s hshort
  refine next_congr ?_
  obtain hlen | hlen | hlen | hlen | hlen :
      p.length = 0 ∨ p.length = 1 ∨ p.length = 2 ∨ p.length = 3 ∨ p.length = 4 := by omega
  all_goals
    simp [burstReport, haveBytes, hlen, publishIfChanged_spatialStatic, publishIfChanged_spatialMotion,
      publishIfChanged_motionDist, publish, State.emit, List.range_succ]

/-! ### Values decoded again -/

/-- A value that its slot holds is neither published nor written. -/
theorem publishIfChanged_of_get {m : Slot} {v : BitVec m.width} {s : State} (h : s.cache.get m = some v) :
    publishIfChanged m v s = s := by
  rcases publishIfChanged_cases m v s with ⟨_, e⟩ | ⟨hne, _⟩
  · exact e
  · exact absurd h hne

theorem publishIfChanged_repeated (m : Slot) (v : BitVec m.width) (s : State) :
    publishIfChanged m v (publishIfChanged m v s) = publishIfChanged m v s :=
  publishIfChanged_of_get (publishIfChanged_get m v s)

/-- Two commands that go through one slot with one value: the second publishes nothing and changes nothing. -/
theorem exec_repeated {i j : Instr} {m : Slot} {v : BitVec m.width} (hi : ∀ s, exec i s = .next (publishIfChanged m v s))
    (hj : ∀ s, exec j s = .next (publishIfChanged m v s)) {s t : State} (hfirst : exec i s = .next t) :
    exec j t = .next t := by
  rw [hi] at hfirst
  cases hfirst
  rw [hj, publishIfChanged_repeated]

theorem exec_amplitude {f : List Byte → Instr} (hf : f ∈ [Instr.oiAmpl07, .oiAmpl87, .huAmpl03, .huAmpl83]) (b : Byte)
    (p : List Byte) (s : State) : exec (f (b :: p)) s = .next (publishIfChanged .moveAmpl b s) := by
  simp only [List.mem_cons, List.not_mem_nil, or_false] at hf
  rcases hf with rfl | rfl | rfl | rfl <;> exact next_congr (amplitudeField_cons _ _ b p s)

/-- `f` decodes a timer of the slot `m`: its four bytes, given as the word `v`, go through that slot. -/
def DecodesTimer (m : Slot) (v : List Byte → BitVec m.width) (f : List Byte → Instr) : Prop :=
  ∀ a b c d p s, exec (f (a :: b :: c :: d :: p)) s = .next (publishIfChanged m (v [a, b, c, d]) s)

theorem decodesTimer {m : Slot} {v : List Byte → BitVec m.width} {f : List Byte → Instr} {cc ss : Byte}
    (hexec : ∀ p s, exec (f p) s = .next (timerField cc ss m (v p) p s))
    (hfour : ∀ a b c d p, v (a :: b :: c :: d :: p) = v [a, b, c, d]) : DecodesTimer m v f := by
  intro a b c d p s
  rw [hexec, timerField_cons, hfour]

theorem u32Of_cons (a b c d : Byte) (p : List Byte) : u32Of (a :: b :: c :: d :: p) = u32Of [a, b, c, d] := rfl

/-- The two commands of one timer in every order. -/
def timerPairs (x y : List Byte → Instr) : List ((List Byte → Instr) × (List Byte → Instr)) :=
  [(x, y), (y, x), (y, y), (x, x)]

theorem exec_timer_repeated {m : Slot} {v : List Byte → BitVec m.width} {x y f g : List Byte → Instr}
    (hx : DecodesTimer m v x) (hy : DecodesTimer m v y) (hfg : (f, g) ∈ timerPairs x y) (a b c d : Byte) (p q : List Byte)
    {s t : State} (hfirst : exec (f (a :: b :: c :: d :: p)) s = .next t) :
    exec (g (a :: b :: c :: d :: q)) t = .next t := by
  have hdecode : DecodesTimer m v f ∧ DecodesTimer m v g := by
    simp only [timerPairs, List.mem_cons, List.not_mem_nil, or_false, Prod.mk.injEq] at hfg
    rcases hfg with ⟨rfl, rfl⟩ | ⟨rfl, rfl⟩ | ⟨rfl, rfl⟩ | ⟨rfl, rfl⟩
    exacts [⟨hx, hy⟩, ⟨hy, hx⟩, ⟨hy, hy⟩, ⟨hx, hx⟩]
  exact exec_repeated (hdecode.1 a b c d p) (hdecode.2 a b c d q) hfirst

/-- A burst report repeated finds its values in the four slots; the static distance has none. -/
theorem exec_burst_repeated {a b c d e : Byte} {p q : List Byte} {s t : State}
    (hfirst : exec (.oiBurst01 (a :: b :: c :: d :: e :: p)) s = .next t) :
    exec (.oiBurst01 (a :: b :: c :: d :: e :: q)) t = .next { t with out := t.out ++ [.pub .staticDist (.half8 b)] } := by
  obtain ⟨v, hv, hreport⟩ := burstReportPublishesFiveFields.2 a b c d e p s
  obtain ⟨v', hv', hagain⟩ := burstReportPublishesFiveFields.2 a b c d e q t
  obtain rfl : v = v' := BitVec.eq_of_toInt_eq (hv.trans hv'.symm)
  rw [hagain]
  rw [hreport] at hfirst
  cases hfirst
  simp

/-- Settles O30: the commands of a slot are one call of `publish_if_changed`, which does nothing for the value the slot holds. -/
theorem repeatedValuesAreNotPublishedAgain : Obligations.RepeatedValuesAreNotPublishedAgain := by
  refine ⟨fun f g b p q s t hf hg hfirst => ?_, fun f g a b c d p q s t hfg hfirst => ?_,
    fun _ _ _ _ _ _ _ _ _ => exec_burst_repeated⟩
  · exact exec_repeated (exec_amplitude hf b p) (exec_amplitude hg b q) hfirst
  · have hpairs : (f, g) ∈ timerPairs .oiTtrig0C .oiTtrig8C ++
        (timerPairs .oiTrest0D .oiTrest8D ++ timerPairs .oiTunm0E .oiTunm8E) := hfg
    rw [List.mem_append, List.mem_append] at hpairs
    rcases hpairs with htrig | hrest | hunm
    · exact exec_timer_repeated (m := .triggerTime) (decodesTimer (fun _ _ => rfl) u32Of_cons)
        (decodesTimer (fun _ _ => rfl) u32Of_cons) htrig a b c d p q hfirst
    · exact exec_timer_repeated (m := .restTime) (decodesTimer (fun _ _ => rfl) u32Of_cons)
        (decodesTimer (fun _ _ => rfl) u32Of_cons) hrest a b c d p q hfirst
    · exact exec_timer_repeated (m := .unmannedTime) (decodesTimer (fun _ _ => rfl) u32Of_cons)
        (decodesTimer (fun _ _ => rfl) u32Of_cons) hunm a b c d p q hfirst

end Sys2Proof.Machine
end

section
/-! PROOFS about the sum as an 8-bit accumulator (40 R122 to R124). The sum of a list put together is the sum of the parts
(`sum8_append`); what the checksum catches and misses follows from that. -/

namespace Sys2Proof

open Machine

theorem sum8_append (xs ys : List Byte) : sum8 (xs ++ ys) = sum8 xs + sum8 ys := by
  rw [sum8, byteSum_append, BitVec.ofNat_add]
  rfl

theorem sum8_singleton (b : Byte) : sum8 [b] = b := by simp [sum8, byteSum]

theorem sum8_cons (b : Byte) (bs : List Byte) : sum8 (b :: bs) = b + sum8 bs := by
  rw [← List.singleton_append, sum8_append, sum8_singleton]

/-- The accumulator adds the sum to what it held. -/
theorem runningSum_eq (acc : Byte) (bs : List Byte) : runningSum acc bs = acc + sum8 bs := by
  induction bs generalizing acc with
  | nil => simp [runningSum, sum8, byteSum]
  | cons b bs ih => rw [runningSum, ih, sum8_cons, BitVec.add_assoc]

/-- One summed byte is determined by the sum and the others. -/
theorem sum8_middle_inj {xs ys : List Byte} {b v : Byte} (h : sum8 (xs ++ b :: ys) = sum8 (xs ++ v :: ys)) : b = v := by
  simpa [sum8_append, sum8_cons] using h

/-- A change of one byte changes the sum. -/
theorem sum8_set_ne {body : List Byte} {i : Nat} {v : Byte} (hi : i < body.length) (hv : v ≠ byteAt body i) :
    sum8 (body.set i v) ≠ sum8 body := by
  have hbyte : byteAt body i = body[i] := by simp [byteAt, hi]
  have hsplit : body.take i ++ byteAt body i :: body.drop (i + 1) = body := by
    rw [hbyte, ← List.drop_eq_getElem_cons hi, List.take_append_drop]
  intro hsame
  rw [List.set_eq_take_append_cons_drop, if_pos hi] at hsame
  exact hv (sum8_middle_inj (hsame.trans (congrArg sum8 hsplit.symm)))

theorem sum8_perm {xs ys : List Byte} (h : xs.Perm ys) : sum8 xs = sum8 ys :=
  congrArg (BitVec.ofNat 8) (h.map BitVec.toNat).sum_eq

/-- Settles O43: the gate compares the sum of the body with the checksum byte. -/
theorem checksumWrapsAndCatchesOneByteNotReordering : Obligations.ChecksumWrapsAndCatchesOneByteNotReordering := by
  refine ⟨fun bytes => by rw [runningSum_eq, BitVec.zero_add]; rfl, fun body k t0 t1 hverify => ?_⟩
  rw [verify_append_three, decide_eq_true_iff] at hverify
  refine ⟨fun i v hi hv => ?_, fun k' hk' => ?_, fun body' hperm => ?_⟩
  · rw [verify_append_three, decide_eq_false_iff_not, ← hverify]
    exact sum8_set_ne hi hv
  · rw [verify_append_three, decide_eq_false_iff_not, hverify]
    exact hk'.symm
  · rw [verify_append_three, decide_eq_true_iff, ← hverify]
    exact sum8_perm hperm

end Sys2Proof
end

section
/-! PROOFS about what a command may do to the state (10 R41, 42 R162, 44 R200 to R203). A command's effect is data, an `Effect`: what
it writes to the dispatcher's registers and which events it appends. `exec_effect` says once that every command has one, within its
`Rights`; all frames of the dispatcher are read off it. -/

namespace Sys2Proof.Machine

/-! ### Effects -/

/-- A value for a slot of the Change Cache. -/
abbrev SlotWrite := (m : Slot) × BitVec m.width

/-- What running a command does: the values it writes to `hb`, `dialect` and the cache slots, and the events it appends, which depend
on the cache it finds. -/
structure Effect where
  hb : Option Byte := none
  dialect : Option Dialect := none
  puts : List SlotWrite := []
  events : Cache → List Event

/-- The cache after writes to its slots, in order. -/
def Cache.putAll (c : Cache) (ws : List SlotWrite) : Cache := ws.foldl (fun c w => c.put w.1 w.2) c

def Effect.apply (e : Effect) (s : State) : State :=
  { s with
    hb := e.hb.getD s.hb
    dialect := e.dialect.getD s.dialect
    cache := s.cache.putAll e.puts
    out := s.out ++ e.events s.cache }

/-- The effect of an event alone. -/
def Effect.emit (ev : Event) : Effect := { events := fun _ => [ev] }

/-- The effect of `publish_if_changed(m, v)`. -/
def Effect.publishIfChanged (m : Slot) (v : BitVec m.width) : Effect :=
  { puts := [⟨m, v⟩], events := fun c => if c.get m = some v then [] else [.pub m.metric (m.value v)] }

/-- One effect, then another on the state it leaves. -/
def Effect.andThen (e f : Effect) : Effect :=
  { hb := f.hb.or e.hb
    dialect := f.dialect.or e.dialect
    puts := e.puts ++ f.puts
    events := fun c => e.events c ++ f.events (c.putAll e.puts) }

theorem Effect.emit_apply (ev : Event) (s : State) : (Effect.emit ev).apply s = s.emit ev := rfl

theorem Effect.publishIfChanged_apply (m : Slot) (v : BitVec m.width) (s : State) :
    (Effect.publishIfChanged m v).apply s = Machine.publishIfChanged m v s :=
  (publishIfChanged_eq m v s).symm

theorem Effect.andThen_apply (e f : Effect) (s : State) : (e.andThen f).apply s = f.apply (e.apply s) := by
  simp [Effect.andThen, Effect.apply, Cache.putAll, List.foldl_append, Option.getD_or]

/-! ### Rights -/

/-- The registers of the dispatcher that a command may write. -/
structure Rights where
  hb : Bool := false
  dialect : Bool := false
  slots : List Slot := []

/-- A slot's value is in its range; only the motion speed's is narrower than its width (10 R41). -/
def Slot.inRange : (m : Slot) → BitVec m.width → Prop
  | .motionSpeed, v => -10 ≤ v.toInt ∧ v.toInt ≤ 245
  | _, _ => True

/-- The effect writes only registers of `r`, with legal values, and appends at most `n` events. -/
structure Effect.Within (e : Effect) (r : Rights) (n : Nat) : Prop where
  hb : ∀ v, e.hb = some v → r.hb = true ∧ v = 0x01#8
  dialect : ∀ d, e.dialect = some d → r.dialect = true
  slots : ∀ w ∈ e.puts, w.1 ∈ r.slots ∧ w.1.inRange w.2
  events : ∀ c, (e.events c).length ≤ n

/-- A state function that is an effect within the rights. -/
def Performs (r : Rights) (n : Nat) (g : State → State) : Prop := ∃ e : Effect, e.Within r n ∧ ∀ s, g s = e.apply s

section Rules

variable {r : Rights} {n k : Nat} {g h : State → State}

theorem Performs.mono (hg : Performs r n g) (hnk : n ≤ k) : Performs r k g := by
  obtain ⟨e, hwithin, happly⟩ := hg
  exact ⟨e, ⟨hwithin.hb, hwithin.dialect, hwithin.slots, fun c => (hwithin.events c).trans hnk⟩, happly⟩

theorem Performs.comp (hh : Performs r k h) (hg : Performs r n g) : Performs r (n + k) fun s => h (g s) := by
  obtain ⟨e, he, hge⟩ := hg
  obtain ⟨f, hf, hhf⟩ := hh
  refine ⟨e.andThen f, ⟨fun v hv => ?_, fun d hd => ?_, fun w hw => ?_, fun c => ?_⟩, fun s => ?_⟩
  · rcases Option.or_eq_some_iff.mp hv with hv | ⟨_, hv⟩
    exacts [hf.hb v hv, he.hb v hv]
  · rcases Option.or_eq_some_iff.mp hd with hd | ⟨_, hd⟩
    exacts [hf.dialect d hd, he.dialect d hd]
  · rcases List.mem_append.mp hw with hw | hw
    exacts [he.slots w hw, hf.slots w hw]
  · rw [Effect.andThen, List.length_append]
    exact Nat.add_le_add (he.events c) (hf.events _)
  · rw [Effect.andThen_apply, ← hge, ← hhf]

theorem Effect.emit_within (ev : Event) (hn : 1 ≤ n) : (Effect.emit ev).Within r n :=
  ⟨nofun, nofun, nofun, fun _ => hn⟩

theorem emit_performs (ev : Event) : Performs r 1 (State.emit ev) :=
  ⟨.emit ev, Effect.emit_within ev (Nat.le_refl 1), fun s => (Effect.emit_apply ev s).symm⟩

theorem publishIfChanged_performs {m : Slot} {v : BitVec m.width} (hm : m ∈ r.slots) (hv : m.inRange v) :
    Performs r 1 (publishIfChanged m v) := by
  refine ⟨.publishIfChanged m v, ⟨nofun, nofun, fun w hw => ?_, fun c => ?_⟩,
    fun s => (Effect.publishIfChanged_apply m v s).symm⟩
  · rw [List.mem_singleton.mp hw]
    exact ⟨hm, hv⟩
  · simp only [Effect.publishIfChanged]
    split <;> simp

/-! ### The operand forms -/

theorem haveBytes_performs (hg : Performs r 1 g) (cc ss : Byte) (p : List Byte) (k : Nat) :
    Performs r 1 (haveBytes cc ss p k g) := by
  by_cases hlen : k ≤ p.length
  · rwa [funext (haveBytes_enough hlen g)]
  · rw [funext (haveBytes_short (Nat.not_le.mp hlen) g)]
    exact emit_performs _

theorem indexField_performs (cc ss : Byte) (m : Metric) (lo hi : Nat) (p : List Byte) :
    Performs r 1 (indexField cc ss m lo hi p) := by
  refine haveBytes_performs ?_ cc ss p 1
  by_cases hrange : lo ≤ (byteAt p 0).toNat ∧ (byteAt p 0).toNat ≤ hi
  · rw [show checkRange cc ss m (byteAt p 0) lo hi = _ from funext fun s => if_pos hrange]
    exact emit_performs _
  · rw [show checkRange cc ss m (byteAt p 0) lo hi = _ from funext fun s => if_neg hrange]
    exact emit_performs (.err (.range cc ss (byteAt p 0)))

theorem stringField_performs (cc ss : Byte) (m : Metric) (p : List Byte) : Performs r 1 (stringField cc ss m p) := by
  by_cases hlen : p.length ≤ 32
  · rw [funext (stringField_published hlen cc ss m)]
    exact emit_performs _
  · rw [funext (stringField_refused (Nat.not_le.mp hlen) cc ss m)]
    exact emit_performs _

/-- A field that is published every time. -/
theorem publishedField_performs (cc ss : Byte) (p : List Byte) (k : Nat) (m : Metric) (v : Value) :
    Performs r 1 (haveBytes cc ss p k (publish m v)) :=
  haveBytes_performs (emit_performs (.pub m v)) cc ss p k

/-- A field that goes through its cache slot. -/
theorem slotField_performs {m : Slot} {v : BitVec m.width} (hm : m ∈ r.slots) (hv : m.inRange v) (cc ss : Byte) (p : List Byte)
    (k : Nat) : Performs r 1 (haveBytes cc ss p k (publishIfChanged m v)) :=
  haveBytes_performs (publishIfChanged_performs hm hv) cc ss p k

theorem switchField_performs (hr : r.dialect = true) (cc ss : Byte) (p : List Byte) :
    Performs r 1 (switchField cc ss p) := by
  refine haveBytes_performs ⟨{
    dialect := some (dialectOf (byteAt p 0))
    events := fun _ => [.pub .outputSwitch (.bool (boolOf (byteAt p 0)))] }, ?_, fun _ => rfl⟩ cc ss p 1
  exact ⟨nofun, fun _ _ => hr, nofun, fun _ => Nat.le_refl 1⟩

end Rules

theorem speedOf_inRange (b : Byte) : Slot.inRange .motionSpeed (speedOf b) := by
  have hbyte := b.isLt
  have hvalue := speedOf_toInt b
  exact ⟨by omega, by omega⟩

/-! ### The commands -/

/-- The registers each command may write. -/
def rightsOf : Instr → Rights
  | .sysHb _ => { hb := true }
  | .oiSw00 _ | .oiSw80 _ => { dialect := true }
  | .oiBurst01 _ => { slots := [.spatialStatic, .spatialMotion, .motionDist, .motionSpeed] }
  | .oiAmpl07 _ | .oiAmpl87 _ | .huAmpl03 _ | .huAmpl83 _ => { slots := [.moveAmpl] }
  | .oiTtrig0C _ | .oiTtrig8C _ => { slots := [.triggerTime] }
  | .oiTrest0D _ | .oiTrest8D _ => { slots := [.restTime] }
  | .oiTunm0E _ | .oiTunm8E _ => { slots := [.unmannedTime] }
  | _ => {}

theorem burstReport_performs (p : List Byte) : Performs (rightsOf (.oiBurst01 p)) 5 (burstReport p) :=
  (slotField_performs (m := .motionSpeed) (by simp [rightsOf]) (speedOf_inRange _) _ _ p 5).comp <|
  (slotField_performs (m := .motionDist) (by simp [rightsOf]) trivial _ _ p 4).comp <|
  (slotField_performs (m := .spatialMotion) (by simp [rightsOf]) trivial _ _ p 3).comp <|
  (publishedField_performs _ _ p 2 .staticDist _).comp <|
  slotField_performs (m := .spatialStatic) (by simp [rightsOf]) trivial _ _ p 1

/-- Every command is an effect on the state, within its rights. -/
theorem exec_performs (i : Instr) : ∃ g, Performs (rightsOf i) 5 g ∧ ∀ s, exec i s = .next (g s) := by
  cases i with
  | sysHb p =>
    exact ⟨_, ⟨{ hb := some 0x01#8, events := fun _ => [] }, ⟨fun _ hv => ⟨rfl, (Option.some.inj hv).symm⟩, nofun, nofun,
      fun _ => Nat.zero_le 5⟩, fun s => by simp [Effect.apply, Cache.putAll]⟩, fun _ => rfl⟩
  | oiBurst01 p => exact ⟨_, burstReport_performs p, fun _ => rfl⟩
  | sysRst p => exact ⟨_, (emit_performs (.log .resetReply)).mono (by decide), fun _ => rfl⟩
  | oiSw00 p | oiSw80 p => exact ⟨_, (switchField_performs rfl _ _ p).mono (by decide), fun _ => rfl⟩
  | prdA1 p | prdA2 p | prdA3 p | prdA4 p => exact ⟨_, (stringField_performs _ _ _ p).mono (by decide), fun _ => rfl⟩
  | wsScene01 p | wsScene07 p | wsScene87 p | oiAppr06 p | oiPbd0A p | oiPbd8A p | oiTbd0B p | oiTbd8B p | oiPdist83 p
  | huMot02 p | huMot82 p | huUnm0A p | huUnm8A p | huAppr0B p | huAppr8B p =>
    exact ⟨_, (indexField_performs _ _ _ _ _ p).mono (by decide), fun _ => rfl⟩
  | prdProto p | wsSens08 p | wsSens88 p | wsInit81 p | drMov01 p | drMov81 p | drSta04 p | drSta84 p | oiJth08 p | oiJth88 p
  | oiAth09 p | oiAth89 p | huPres01 p | huPres81 p =>
    exact ⟨_, (publishedField_performs _ _ p _ _ _).mono (by decide), fun _ => rfl⟩
  | oiAmpl07 p | oiAmpl87 p | huAmpl03 p | huAmpl83 p =>
    exact ⟨_, (slotField_performs (m := .moveAmpl) (List.mem_singleton_self _) trivial _ _ p 1).mono (by decide),
      fun _ => rfl⟩
  | oiTtrig0C p | oiTtrig8C p =>
    exact ⟨_, (slotField_performs (m := .triggerTime) (List.mem_singleton_self _) trivial _ _ p 4).mono (by decide),
      fun _ => rfl⟩
  | oiTrest0D p | oiTrest8D p =>
    exact ⟨_, (slotField_performs (m := .restTime) (List.mem_singleton_self _) trivial _ _ p 4).mono (by decide),
      fun _ => rfl⟩
  | oiTunm0E p | oiTunm8E p =>
    exact ⟨_, (slotField_performs (m := .unmannedTime) (List.mem_singleton_self _) trivial _ _ p 4).mono (by decide),
      fun _ => rfl⟩

theorem exec_effect (i : Instr) : ∃ e : Effect, e.Within (rightsOf i) 5 ∧ ∀ s, exec i s = .next (e.apply s) := by
  obtain ⟨g, ⟨e, hwithin, happly⟩, hexec⟩ := exec_performs i
  exact ⟨e, hwithin, fun s => (hexec s).trans (next_congr (happly s))⟩

/-! ### What a command leaves unchanged -/

theorem Cache.putAll_get_other {m : Slot} {ws : List SlotWrite} (h : ∀ w ∈ ws, w.1 ≠ m) (c : Cache) :
    (c.putAll ws).get m = c.get m := by
  induction ws generalizing c with
  | nil => rfl
  | cons w ws ih =>
    obtain ⟨hw, hws⟩ := List.forall_mem_cons.mp h
    calc ((c.put w.1 w.2).putAll ws).get m = (c.put w.1 w.2).get m := ih hws _
      _ = c.get m := Cache.get_put_other c w.1 m w.2 hw.symm

/-- A slot that changes is one of the rights. -/
theorem Effect.Within.mem_slots {e : Effect} {r : Rights} {n : Nat} (h : e.Within r n) {m : Slot} {c : Cache}
    (hchanged : (c.putAll e.puts).get m ≠ c.get m) : m ∈ r.slots := by
  by_contra hm
  exact hchanged (Cache.putAll_get_other (fun w hw (hwm : w.1 = m) => hm (hwm ▸ (h.slots w hw).1)) c)

theorem rightsOf_hb {i : Instr} (h : (rightsOf i).hb = true) : ∃ p, i = .sysHb p := by
  unfold rightsOf at h
  split at h <;> simp_all

/-- Every answer of the ROM is an effect: a row's is its command's, an unknown pair's is the error event. -/
theorem runRom_effect (r : RomResult) : ∃ (e : Effect) (w : Rights), e.Within w 5 ∧
    (w.hb = true → ∃ p, r = .row (.sysHb p)) ∧ ∀ s, runRom r s = .next (e.apply s) := by
  cases r with
  | row i =>
    obtain ⟨e, hwithin, hexec⟩ := exec_effect i
    exact ⟨e, rightsOf i, hwithin, fun hhb => (rightsOf_hb hhb).imp fun _ => congrArg RomResult.row, hexec⟩
  | unknownControl c k => exact ⟨_, {}, Effect.emit_within (.err (.unkCtrl c k)) (by decide), nofun, fun _ => rfl⟩
  | unknownCommand c k => exact ⟨_, {}, Effect.emit_within (.err (.unkCmd c k)) (by decide), nofun, fun _ => rfl⟩

theorem rightsOf_dialect {i : Instr} (h : (rightsOf i).dialect = true) : ∃ p, i = .oiSw00 p ∨ i = .oiSw80 p := by
  unfold rightsOf at h
  split at h <;> simp_all

theorem rightsOf_moveAmpl {i : Instr} (h : .moveAmpl ∈ (rightsOf i).slots) :
    ∃ p, i = .oiAmpl07 p ∨ i = .oiAmpl87 p ∨ i = .huAmpl03 p ∨ i = .huAmpl83 p := by
  unfold rightsOf at h
  split at h <;> simp_all

theorem rightsOf_triggerTime {i : Instr} (h : .triggerTime ∈ (rightsOf i).slots) :
    ∃ p, i = .oiTtrig0C p ∨ i = .oiTtrig8C p := by
  unfold rightsOf at h
  split at h <;> simp_all

theorem rightsOf_restTime {i : Instr} (h : .restTime ∈ (rightsOf i).slots) : ∃ p, i = .oiTrest0D p ∨ i = .oiTrest8D p := by
  unfold rightsOf at h
  split at h <;> simp_all

theorem rightsOf_unmannedTime {i : Instr} (h : .unmannedTime ∈ (rightsOf i).slots) :
    ∃ p, i = .oiTunm0E p ∨ i = .oiTunm8E p := by
  unfold rightsOf at h
  split at h <;> simp_all

theorem rightsOf_burst {i : Instr} {m : Slot} (hm : m ∈ [.spatialStatic, .spatialMotion, .motionDist, .motionSpeed])
    (h : m ∈ (rightsOf i).slots) : ∃ p, i = .oiBurst01 p := by
  unfold rightsOf at h
  split at h <;> simp_all

/-- Settles O28: the effect of the command, field by field; a register it writes is one of its rights. -/
theorem commandsLeaveTheRestAlone : Obligations.CommandsLeaveTheRestAlone := by
  intro i s
  obtain ⟨e, hwithin, hexec⟩ := exec_effect i
  refine ⟨e.apply s, hexec s, rfl, rfl, rfl, rfl, fun _ => rfl, rfl, rfl, rfl, rfl, ⟨_, rfl, hwithin.events s.cache⟩,
    fun hhb => ?_, fun hdialect => ?_,
    fun hslot => rightsOf_moveAmpl (hwithin.mem_slots (m := .moveAmpl) hslot),
    fun hslot => rightsOf_triggerTime (hwithin.mem_slots (m := .triggerTime) hslot),
    fun hslot => rightsOf_restTime (hwithin.mem_slots (m := .restTime) hslot),
    fun hslot => rightsOf_unmannedTime (hwithin.mem_slots (m := .unmannedTime) hslot), ?_⟩
  · cases hwrite : e.hb with
    | none => simp [Effect.apply, hwrite] at hhb
    | some v => exact rightsOf_hb (hwithin.hb v hwrite).1
  · cases hwrite : e.dialect with
    | none => simp [Effect.apply, hwrite] at hdialect
    | some d => exact rightsOf_dialect (hwithin.dialect d hwrite)
  · rintro (hslot | hslot | hslot | hslot)
    · exact rightsOf_burst (by decide) (hwithin.mem_slots (m := .spatialStatic) hslot)
    · exact rightsOf_burst (by decide) (hwithin.mem_slots (m := .spatialMotion) hslot)
    · exact rightsOf_burst (by decide) (hwithin.mem_slots (m := .motionDist) hslot)
    · exact rightsOf_burst (by decide) (hwithin.mem_slots (m := .motionSpeed) hslot)

end Sys2Proof.Machine
end

section
/-! PROOFS about what a byte does to the decoder, whatever its state (41 R130 to R142). A byte is discarded, accepted (`Accepts`), aborts
the frame (`Aborts`), completes it, or meets a countdown that has run out; `receives` says that it is one of these, an equation of
`rx` says what each does. In a good state `BlockInv.rx_reacts` puts them together. -/

namespace Sys2Proof.Machine

/-! ### The ways a byte is received -/

/-- The address at which the rule of the decoder state stores its byte. -/
def writeIndex (s : State) : Nat :=
  match s.st with
  | .idle => 0
  | .sawHeader1 => 1
  | .readControl => 2
  | .readCommand => 3
  | .readLenHi => 4
  | .readLenLo => 5
  | _ => s.widx

/-- The byte is accepted: the decoder state, the staged length and the countdown afterwards. -/
inductive Accepts (b : Byte) (s : State) : DecState → Nat → Nat → Prop
  | header0 (hst : s.st = .idle) (hb : b = Config.hdr0) : Accepts b s .sawHeader1 s.lenStage s.cnt
  | header1 (hst : s.st = .sawHeader1) (hb : b = Config.hdr1) : Accepts b s .readControl s.lenStage s.cnt
  | control (hst : s.st = .readControl) : Accepts b s .readCommand s.lenStage s.cnt
  | command (hst : s.st = .readCommand) : Accepts b s .readLenHi s.lenStage s.cnt
  | lenHi (hst : s.st = .readLenHi) (hb : b.toNat ≤ 4) : Accepts b s .readLenLo (b.toNat * 256) s.cnt
  | noPayload (hst : s.st = .readLenLo) (ht : s.lenStage + b.toNat = 0) : Accepts b s .readChecksum 0 0
  | somePayload (hst : s.st = .readLenLo) (hpos : 1 ≤ s.lenStage + b.toNat) (hle : s.lenStage + b.toNat ≤ 32) :
      Accepts b s .readPayload (s.lenStage + b.toNat) (s.lenStage + b.toNat)
  | payloadMore (hst : s.st = .readPayload) (hcnt : 1 < s.cnt) : Accepts b s .readPayload s.lenStage (s.cnt - 1)
  | payloadLast (hst : s.st = .readPayload) (hcnt : s.cnt = 1) : Accepts b s .readChecksum s.lenStage 0
  | checksum (hst : s.st = .readChecksum) : Accepts b s .sawTail1 s.lenStage s.cnt
  | tail0 (hst : s.st = .sawTail1) (hb : b = Config.tail0) : Accepts b s .sawTail2 s.lenStage s.cnt

theorem Accepts.congr_target {b : Byte} {s : State} {st₁ st₂ : DecState} {l₁ l₂ c₁ c₂ : Nat} (h : Accepts b s st₁ l₁ c₁)
    (hst : st₁ = st₂) (hl : l₁ = l₂) (hc : c₁ = c₂) : Accepts b s st₂ l₂ c₂ := by
  subst hst hl hc
  exact h

/-- The byte aborts the frame with an error. -/
inductive Aborts (b : Byte) (s : State) : Err → Prop
  | header1 (hst : s.st = .sawHeader1) (hb : b ≠ Config.hdr1) : Aborts b s (.hdr2 b)
  | lenHi (hst : s.st = .readLenHi) (hb : 4 < b.toNat) : Aborts b s (.lenHi b)
  | lenOver (hst : s.st = .readLenLo) (ht : 32 < s.lenStage + b.toNat) : Aborts b s (.lenOver (s.lenStage + b.toNat))
  | tail1 (hst : s.st = .sawTail1) (hb : b ≠ Config.tail0) : Aborts b s (.tail1 b)
  | tail2 (hst : s.st = .sawTail2) (hb : b ≠ Config.tail1) : Aborts b s (.tail2 b)

/-- The five ways of receiving a byte; the last is outside the spec's domain (41 R138). -/
inductive Receives (b : Byte) (s : State) : Prop
  | discarded (hst : s.st = .idle) (hb : b ≠ Config.hdr0)
  | accepted {st' : DecState} {l c : Nat} (h : Accepts b s st' l c)
  | aborted {e : Err} (h : Aborts b s e)
  | completed (hst : s.st = .sawTail2) (hb : b = Config.tail1)
  | underflow (hst : s.st = .readPayload) (hcnt : s.cnt = 0)

theorem receives (b : Byte) (s : State) : Receives b s := by
  cases hst : s.st with
  | idle =>
    by_cases hb : b = Config.hdr0
    exacts [.accepted (.header0 hst hb), .discarded hst hb]
  | sawHeader1 =>
    by_cases hb : b = Config.hdr1
    exacts [.accepted (.header1 hst hb), .aborted (.header1 hst hb)]
  | readControl => exact .accepted (.control hst)
  | readCommand => exact .accepted (.command hst)
  | readLenHi =>
    by_cases hb : b.toNat ≤ 4
    exacts [.accepted (.lenHi hst hb), .aborted (.lenHi hst (Nat.not_le.mp hb))]
  | readLenLo =>
    by_cases hzero : s.lenStage + b.toNat = 0
    · exact .accepted (.noPayload hst hzero)
    by_cases hle : s.lenStage + b.toNat ≤ 32
    exacts [.accepted (.somePayload hst (Nat.pos_of_ne_zero hzero) hle), .aborted (.lenOver hst (Nat.not_le.mp hle))]
  | readPayload =>
    obtain hcnt | hcnt | hcnt : s.cnt = 0 ∨ s.cnt = 1 ∨ 1 < s.cnt := by omega
    exacts [.underflow hst hcnt, .accepted (.payloadLast hst hcnt), .accepted (.payloadMore hst hcnt)]
  | readChecksum => exact .accepted (.checksum hst)
  | sawTail1 =>
    by_cases hb : b = Config.tail0
    exacts [.accepted (.tail0 hst hb), .aborted (.tail1 hst hb)]
  | sawTail2 =>
    by_cases hb : b = Config.tail1
    exacts [.completed hst hb, .aborted (.tail2 hst hb)]

/-! ### What each does -/

theorem rx_discarded {b : Byte} {s : State} (hst : s.st = .idle) (hb : b ≠ Config.hdr0) : rx b s = .next s := by
  rw [rx, hst]
  exact if_neg hb

theorem rx_underflow {s : State} (hst : s.st = .readPayload) (hcnt : s.cnt = 0) (b : Byte) :
    rx b s = .fault .countdownUnderflow := by
  rw [rx, hst]
  exact if_pos hcnt

/-- Accept and store with the length registers written before it, as the rules of the length and of the payload do. -/
theorem acceptByte_counted (a : Nat) (b : Byte) (st' : DecState) (l c : Nat) (s : State) :
    acceptByte a b st' { s with lenStage := l, cnt := c } =
      andThen (store a b s) fun t => .next { t with st := st', lenStage := l, cnt := c } := by
  unfold acceptByte store
  split <;> rfl

theorem rx_accepts {b : Byte} {s : State} {st' : DecState} {l c : Nat} (h : Accepts b s st' l c) :
    rx b s = andThen (store (writeIndex s) b s) fun t => .next { t with st := st', lenStage := l, cnt := c } := by
  rw [← acceptByte_counted]
  cases s with
  | mk st widx buf lenStage cnt =>
    cases h with
    | header0 hst hb | header1 hst hb | lenHi hst hb | tail0 hst hb =>
      cases hst
      exact if_pos hb
    | control hst | command hst | checksum hst =>
      cases hst
      rfl
    | noPayload hst ht =>
      cases hst
      simp [rx, rxReadLenLo, writeIndex, ht]
    | somePayload hst hpos hle =>
      cases hst
      refine (if_pos hle).trans ?_
      rw [if_neg (Nat.ne_of_gt hpos)]
      rfl
    | payloadMore hst hcnt =>
      cases hst
      refine (if_neg (Nat.ne_of_gt (Nat.zero_lt_of_lt hcnt))).trans ?_
      rw [if_neg (Nat.sub_ne_zero_of_lt hcnt)]
      rfl
    | payloadLast hst hcnt =>
      cases hst
      cases hcnt
      rfl

theorem rx_accepts_inside {b : Byte} {s : State} {st' : DecState} {l c : Nat} (h : Accepts b s st' l c)
    (hinside : writeIndex s < s.params.bufCap) :
    rx b s = .next { s with
      buf := s.buf.write (writeIndex s) b, widx := writeIndex s + 1, st := st', lenStage := l, cnt := c } := by
  rw [rx_accepts h, store_inside hinside, andThen_next]

theorem Aborts.ofDecoder {b : Byte} {s : State} {e : Err} (h : Aborts b s e) : e.ofDecoder = true := by
  cases h <;> rfl

theorem rx_aborts {b : Byte} {s : State} {e : Err} (h : Aborts b s e) : rx b s = .next (s.emit (.err e)).fdClear := by
  rw [← raise_decoder h.ofDecoder]
  cases h with
  | header1 hst hb | tail1 hst hb | tail2 hst hb =>
    rw [rx, hst]
    exact if_neg hb
  | lenHi hst hb | lenOver hst hb =>
    rw [rx, hst]
    exact if_neg (Nat.not_le.mpr hb)

/-- Completion: the second tail byte is stored, the frame in the buffer is run or reported, and the decoder clears itself. -/
theorem rx_completes {s : State} (hst : s.st = .sawTail2) :
    rx Config.tail1 s =
      andThen (store s.widx Config.tail1 s) fun t => andThen (complete t) fun u => .next u.fdClear := by
  rw [rx, hst]
  show rxSawTail2 Config.tail1 s = _
  rw [rxSawTail2, if_pos rfl]
  cases store s.widx Config.tail1 s <;> rfl

/-- Settles O32, on the two branches of the rule. -/
theorem secondHeaderByteCommitsOrAborts : Obligations.SecondHeaderByteCommitsOrAborts := by
  intro b s hst hcap
  have hindex : writeIndex s = 1 := by rw [writeIndex, hst]
  refine ⟨fun hb => ?_, fun hb => rx_aborts (.header1 hst hb)⟩
  rw [rx_accepts_inside (.header1 hst hb) (by omega), hindex]

/-- Settles O35: the total is zero, fits or is refused. -/
theorem totalLengthIsAcceptedUpTo32 : Obligations.TotalLengthIsAcceptedUpTo32 := by
  intro b s hst hcap
  have hindex : writeIndex s = 5 := by rw [writeIndex, hst]
  refine ⟨fun hzero => ?_, fun hpos hle => ?_, fun hover => rx_aborts (.lenOver hst hover)⟩
  · rw [rx_accepts_inside (.noPayload hst hzero) (by omega), hindex]
  · rw [rx_accepts_inside (.somePayload hst hpos hle) (by omega), hindex]

/-! ### Completion is an effect -/

/-- The snapshot is a valid heartbeat reply (42 R162). -/
def isHeartbeatReply (snap : List Byte) : Prop :=
  6 ≤ snap.length ∧ verify snap = true ∧ byteAt snap 2 = 0x01#8 ∧ byteAt snap 3 = 0x01#8

/-- What completion does is decided by the snapshot alone: it stops outside the spec's domain, or has an effect, which writes `hb` only
for a heartbeat reply, before the decoder is cleared. -/
theorem complete_effect (snap : List Byte) :
    (∀ s, snapshot s = snap → complete s = .fault .snapshotBounds) ∨
    ∃ (e : Effect) (r : Rights), e.Within r 5 ∧ (r.hb = true → isHeartbeatReply snap) ∧
      ∀ s, snapshot s = snap → (andThen (complete s) fun t => .next t.fdClear) = .next (e.apply s).fdClear := by
  by_cases hthree : snap.length < 3
  · refine .inl ?_
    rintro s rfl
    exact if_pos hthree
  by_cases hverify : verify snap = true
  · have hdispatch : ∀ s, snapshot s = snap → complete s = dispatch snap s := by
      rintro s rfl
      rw [complete, if_neg hthree, if_pos hverify]
    cases hread : memRead snap 4 2 with
    | none => exact .inl fun s hs => by simp [hdispatch s hs, dispatch, hread]
    | some n =>
      by_cases hlen : 6 + n ≤ snap.length
      · obtain ⟨e, r, hwithin, hhb, hrun⟩ :=
          runRom_effect (romLookup (byteAt snap 2) (byteAt snap 3) ((snap.drop 6).take n))
        refine .inr ⟨e, r, hwithin, fun hr => ?_, fun s hs => ?_⟩
        · obtain ⟨p, hrow⟩ := hhb hr
          obtain ⟨hctrl, hcmd, _⟩ := romLookup_eq_row_iff.mp hrow
          exact ⟨by omega, hverify, hctrl.symm, hcmd.symm⟩
        · simp [hdispatch s hs, dispatch, hread, hlen, hrun]
      · exact .inl fun s hs => by simp [hdispatch s hs, dispatch, hread, hlen]
  · refine .inr ⟨.emit (.err (.cksum (checksum snap) (checksumByte snap))), {},
      Effect.emit_within _ (by decide), nofun, ?_⟩
    rintro s rfl
    rw [complete, if_neg hthree, if_neg hverify]
    rfl

/-! ### A byte in a good state -/

theorem BlockInv.writeIndex_eq {s : State} (h : BlockInv s) : writeIndex s = s.widx := by
  rw [h.widx, writeIndex, State.tableWidx]
  cases hst : s.st <;> simp [h.widx, State.tableWidx, hst]

theorem BlockInv.widx_le {s : State} (h : BlockInv s) : s.widx ≤ 40 := by
  have hlen := h.lenStage_le
  have hwidx := h.widx
  unfold State.tableWidx at hwidx
  cases hst : s.st <;> simp only [hst, DecState.code] at hwidx hlen <;> omega

theorem BlockInv.widx_inside {s : State} (h : BlockInv s) : s.widx < s.params.bufCap := h.inside h.widx_le

/-- What a byte does to a good state. -/
inductive Reacts (b : Byte) (s : State) : Out → Prop
  | discarded (hst : s.st = .idle) : Reacts b s (.next s)
  | accepted {st' : DecState} {l c : Nat} (h : Accepts b s st' l c) : Reacts b s (.next { s with
      buf := s.buf.write s.widx b, widx := s.widx + 1, st := st', lenStage := l, cnt := c })
  | aborted {e : Err} (h : Aborts b s e) : Reacts b s (.next (s.emit (.err e)).fdClear)
  | completed {e : Effect} {r : Rights} (hst : s.st = .sawTail2) (hb : b = Config.tail1) (hwithin : e.Within r 5) :
      Reacts b s (.next (e.apply (tailStored s)).fdClear)

theorem BlockInv.rx_reacts {s : State} (h : BlockInv s) (b : Byte) : Reacts b s (rx b s) := by
  cases receives b s with
  | discarded hst hb =>
    rw [rx_discarded hst hb]
    exact .discarded hst
  | accepted hacc =>
    rw [rx_accepts_inside hacc (by rw [h.writeIndex_eq]; exact h.widx_inside), h.writeIndex_eq]
    exact .accepted hacc
  | aborted habort =>
    rw [rx_aborts habort]
    exact .aborted habort
  | completed hst hb =>
    obtain ⟨u, hu, _⟩ := (secondTailByteCompletesOrDiscards b s h hst).1 hb
    rcases complete_effect (snapshot (tailStored s)) with hfault | ⟨e, r, hwithin, _, heffect⟩
    · cases hu.symm.trans (hfault _ rfl)
    · subst hb
      rw [rx_sawTail2_tail1 h hst, heffect _ rfl]
      exact .completed hst rfl hwithin
  | underflow hst hcnt =>
    have hpos := (h.cnt.1 hst).1
    omega

/-- Settles O41: the byte is stored at `widx`, the second tail byte among them, or the buffer is left alone. -/
theorem receivingWritesAtMostOneByte : Obligations.ReceivingWritesAtMostOneByte := by
  intro b s t h hnext
  have hreacts := h.rx_reacts b
  rw [hnext] at hreacts
  cases hreacts with
  | discarded | aborted => exact ⟨fun _ _ => rfl, .inr rfl⟩
  | accepted =>
    exact ⟨fun a ha => Memory.read_write_other s.buf b ha, .inl (Memory.read_write_same h.mem s.widx b)⟩
  | completed _ hb =>
    subst hb
    exact ⟨fun a ha => Memory.read_write_other s.buf Config.tail1 ha, .inl (Memory.read_write_same h.mem s.widx Config.tail1)⟩

/-- Settles O40: the gate lets the frame through, and its fields stand where storing the tail left them. -/
theorem completedFrameIsDispatched : Obligations.CompletedFrameIsDispatched := by
  intro s h hst hsum
  have hpayload : payloadOf (tailStored s) = payloadOf s := by
    obtain ⟨_, hwidx⟩ := h.sawTail2_registers hst
    refine List.map_congr_left fun j hj => tailStored_read ?_
    have hj : j < s.lenStage := List.mem_range.mp hj
    omega
  calc rx 0x43#8 s = andThen (complete (tailStored s)) fun t => .next t.fdClear := rx_sawTail2_tail1 h hst
    _ = _ := by rw [complete_tailStored h hst, if_pos ((verify_tailStored_iff h hst).mpr hsum), hpayload]

end Sys2Proof.Machine
end

section
/-! PROOFS about good states (41 R144; 10 R23, R33, R41): every step answers a next state and keeps the invariant, and a frame in
progress ends within 40 bytes. The part of the invariant that does not speak of the frame in progress is `Sound`; a sound state whose
decoder is cleared is good, so only an accepted byte has to be looked at rule by rule. -/

namespace Sys2Proof.Machine

/-! ### The invariant without the frame in progress -/

structure Sound (s : State) : Prop where
  cap : Config.maxFrame ≤ s.params.bufCap
  mem : s.buf.wf = true
  outside : ∀ a, s.params.bufCap ≤ a → s.buf.read a = unlistedByte
  hb : s.hb = 0xFF#8 ∨ s.hb = 0x00#8 ∨ s.hb = 0x01#8
  speed : s.cache.speedOk
  speedInit : s.params.cacheInit.speedOk

theorem BlockInv.sound {s : State} (h : BlockInv s) : Sound s := ⟨h.cap, h.mem, h.outside, h.hb, h.speed, h.speedInit⟩

theorem Sound.fdClear_good {s : State} (h : Sound s) : BlockInv s.fdClear where
  cap := h.cap
  mem := h.mem
  outside := h.outside
  widx := rfl
  lenStage := rfl
  cnt := ⟨nofun, fun _ => rfl⟩
  header := ⟨nofun, nofun, nofun, nofun⟩
  hb := h.hb
  speed := h.speed
  speedInit := h.speedInit

/-- Settles O53: the state after reset is sound and its decoder is cleared. -/
theorem resetStateIsGood : Obligations.ResetStateIsGood :=
  Sound.fdClear_good (s := State.reset) ⟨Nat.le_refl 41, rfl, fun _ _ => rfl, .inl rfl, nofun, nofun⟩

theorem Sound.write {s : State} (h : Sound s) {a : Nat} (ha : a < s.params.bufCap) (b : Byte) (st' : DecState) (w l c : Nat) :
    Sound { s with buf := s.buf.write a b, widx := w, st := st', lenStage := l, cnt := c } where
  cap := h.cap
  mem := Memory.write_wf h.mem a b
  outside x hx := (Memory.read_write_other s.buf b (Nat.ne_of_gt (Nat.lt_of_lt_of_le ha hx))).trans (h.outside x hx)
  hb := h.hb
  speed := h.speed
  speedInit := h.speedInit

/-! ### Effects keep a state sound -/

theorem Cache.put_speedOk {c : Cache} (h : c.speedOk) {m : Slot} {v : BitVec m.width} (hv : m.inRange v) :
    (c.put m v).speedOk := by
  cases m with
  | motionSpeed =>
    intro x hx
    cases hx
    exact hv
  | _ => exact h

theorem Cache.putAll_speedOk {c : Cache} (h : c.speedOk) {ws : List SlotWrite} (hws : ∀ w ∈ ws, w.1.inRange w.2) :
    (c.putAll ws).speedOk := by
  induction ws generalizing c with
  | nil => exact h
  | cons w ws ih =>
    obtain ⟨hw, hws⟩ := List.forall_mem_cons.mp hws
    exact ih (Cache.put_speedOk h hw) hws

theorem Sound.apply {s : State} (h : Sound s) {e : Effect} {r : Rights} {n : Nat} (he : e.Within r n) : Sound (e.apply s) where
  cap := h.cap
  mem := h.mem
  outside := h.outside
  hb := by
    cases hwrite : e.hb with
    | none => simpa [Effect.apply, hwrite] using h.hb
    | some v => simp [Effect.apply, hwrite, (he.hb v hwrite).2]
  speed := Cache.putAll_speedOk h.speed fun w hw => (he.slots w hw).2
  speedInit := h.speedInit

/-! ### The host's steps and the interface -/

/-- The invariant does not speak of the requests, the output list or the counter of choices. -/
theorem BlockInv.interface {s : State} (h : BlockInv s) (input : List Request) (out : List Event) (choices : Nat) :
    BlockInv { s with input := input, out := out, choices := choices } :=
  ⟨h.cap, h.mem, h.outside, h.widx, h.lenStage, h.cnt, h.header, h.hb, h.speed, h.speedInit⟩

theorem BlockInv.hbTake {s : State} (h : BlockInv s) : BlockInv (hbTake s) := by
  by_cases hhb : s.hb = 0xFF#8
  · rwa [hbTake_uninitialized hhb]
  · rw [hbTake_pending hhb]
    exact ⟨h.cap, h.mem, h.outside, h.widx, h.lenStage, h.cnt, h.header, .inl rfl, h.speed, h.speedInit⟩

theorem BlockInv.resetBlock {s : State} (h : BlockInv s) : BlockInv (resetBlock s) :=
  Sound.fdClear_good (s := Machine.resetBlock s) ⟨h.cap, rfl, fun _ _ => rfl, .inl rfl, h.speedInit, h.speedInit⟩

/-! ### An accepted byte -/

/-- Up to the low length byte the write index is the code of the decoder state; the length registers are 0 before the high one. -/
theorem BlockInv.early_registers {s : State} (h : BlockInv s) (hst : s.st.code ≤ 4) :
    s.widx = s.st.code ∧ s.lenStage = 0 ∧ s.cnt = 0 := by
  have hlen := h.lenStage
  have hcnt := h.cnt.2
  rw [h.widx]
  cases hcase : s.st with
  | idle | sawHeader1 | readControl | readCommand | readLenHi =>
    rw [State.lenStageOk, hcase] at hlen
    exact ⟨by rw [State.tableWidx, hcase]; rfl, hlen, hcnt (by rw [hcase]; nofun)⟩
  | readLenLo | readPayload | readChecksum | sawTail1 | sawTail2 =>
    rw [hcase] at hst
    exact absurd hst (by decide)

theorem BlockInv.readLenLo_registers {s : State} (h : BlockInv s) (hst : s.st = .readLenLo) :
    s.widx = 5 ∧ s.lenStage = (s.buf.read 4).toNat * 256 ∧ s.cnt = 0 := by
  have hlen := h.lenStage
  rw [State.lenStageOk, hst] at hlen
  exact ⟨by rw [h.widx, State.tableWidx, hst], hlen.1, h.cnt.2 (by rw [hst]; nofun)⟩

/-- The byte is right for the place at which it is stored: one of the fixed bytes, a length byte of an accepted total, or a byte behind
the length that leaves the staged length alone. -/
inductive RightByte (s : State) (b : Byte) (l : Nat) : Prop
  | early (hw : s.widx ≤ 4) (h0 : s.widx = 0 → b = Config.hdr0) (h1 : s.widx = 1 → b = Config.hdr1)
  | length (hw : s.widx = 5) (hhigh : s.buf.read 4 = 0x00#8) (hlow : b.toNat = l)
  | late (hw : 6 ≤ s.widx) (hl : l = s.lenStage)

theorem BlockInv.headerOk_write {s : State} (h : BlockInv s) {b : Byte} {st' : DecState} {l c : Nat}
    (hright : RightByte s b l) (htail : st' = .sawTail2 → s.widx = 7 + l ∧ b = Config.tail0) :
    State.headerOk { s with buf := s.buf.write s.widx b, widx := s.widx + 1, st := st', lenStage := l, cnt := c } := by
  obtain ⟨hread0, hread1, hlength, _⟩ := h.header
  have hold {a : Nat} (ha : a < s.widx) : (s.buf.write s.widx b).read a = s.buf.read a :=
    Memory.read_write_other s.buf b (Nat.ne_of_lt ha)
  have hnew {a : Nat} (ha : s.widx = a) : (s.buf.write s.widx b).read a = b := ha ▸ Memory.read_write_same h.mem s.widx b
  refine ⟨fun _ => ?_, fun (hw : 2 ≤ s.widx + 1) => ?_, fun (hw : 6 ≤ s.widx + 1) => ?_, fun hst => ?_⟩
  · show (s.buf.write s.widx b).read 0 = Config.hdr0
    by_cases hw0 : s.widx = 0
    · cases hright with
      | early _ h0 _ => rw [hnew hw0, h0 hw0]
      | length | late => omega
    · rw [hold (by omega), hread0 (by omega)]
  · show (s.buf.write s.widx b).read 1 = Config.hdr1
    by_cases hw1 : s.widx = 1
    · cases hright with
      | early _ _ h1 => rw [hnew hw1, h1 hw1]
      | length | late => omega
    · rw [hold (by omega), hread1 (by omega)]
  · show (s.buf.write s.widx b).read 4 = 0x00#8 ∧ ((s.buf.write s.widx b).read 5).toNat = l
    cases hright with
    | early => omega
    | length hw5 hhigh hlow => rw [hold (by omega), hnew hw5]; exact ⟨hhigh, hlow⟩
    | late hw6 hl => rw [hold (by omega), hold (by omega), hl]; exact hlength hw6
  · obtain ⟨hwidx, hb⟩ := htail hst
    exact (hnew hwidx).trans hb

/-- What an accepting rule has to leave in the registers of a good state. -/
structure AcceptedOk (s : State) (b : Byte) (st' : DecState) (l c : Nat) : Prop where
  widx : s.widx + 1 = State.tableWidx { s with st := st', lenStage := l, cnt := c }
  lenStage : State.lenStageOk { s with buf := s.buf.write s.widx b, st := st', lenStage := l }
  cnt : (st' = .readPayload → 1 ≤ c ∧ c ≤ l) ∧ (st' ≠ .readPayload → c = 0)
  right : RightByte s b l
  tail : st' = .sawTail2 → s.widx = 7 + l ∧ b = Config.tail0

theorem BlockInv.acceptedOk {s : State} (h : BlockInv s) {b : Byte} {st' : DecState} {l c : Nat}
    (hacc : Accepts b s st' l c) : AcceptedOk s b st' l c := by
  cases hacc with
  | header0 hst hb | header1 hst hb =>
    obtain ⟨hwidx, hlen, hcnt⟩ := h.early_registers (by rw [hst]; decide)
    rw [hst] at hwidx
    exact ⟨congrArg (· + 1) hwidx, hlen, ⟨nofun, fun _ => hcnt⟩,
      .early (hwidx ▸ by decide) (by simp [hwidx, DecState.code, hb]) (by simp [hwidx, DecState.code, hb]), nofun⟩
  | control hst | command hst =>
    obtain ⟨hwidx, hlen, hcnt⟩ := h.early_registers (by rw [hst]; decide)
    rw [hst] at hwidx
    exact ⟨congrArg (· + 1) hwidx, hlen, ⟨nofun, fun _ => hcnt⟩,
      .early (hwidx ▸ by decide) (by simp [hwidx, DecState.code]) (by simp [hwidx, DecState.code]), nofun⟩
  | lenHi hst hb =>
    obtain ⟨hwidx, _, hcnt⟩ := h.early_registers (by rw [hst]; decide)
    rw [hst] at hwidx
    have hread : (s.buf.write s.widx b).read 4 = b := by rw [hwidx]; exact Memory.read_write_same h.mem 4 b
    exact ⟨congrArg (· + 1) hwidx, by rw [State.lenStageOk, hread]; exact ⟨rfl, hb⟩, ⟨nofun, fun _ => hcnt⟩,
      .early (hwidx ▸ by decide) (by simp [hwidx, DecState.code]) (by simp [hwidx, DecState.code]), nofun⟩
  | noPayload hst ht =>
    obtain ⟨hwidx, hlen, _⟩ := h.readLenLo_registers hst
    have hhigh : s.buf.read 4 = 0x00#8 := (toNat_eq_zero_iff _).mp (by omega)
    exact ⟨congrArg (· + 1) hwidx, Nat.zero_le _, ⟨nofun, fun _ => rfl⟩, .length hwidx hhigh (by omega), nofun⟩
  | somePayload hst hpos hle =>
    obtain ⟨hwidx, hlen, _⟩ := h.readLenLo_registers hst
    have hzero : (s.buf.read 4).toNat = 0 := by omega
    refine ⟨?_, hle, ⟨fun _ => ⟨hpos, Nat.le_refl _⟩, fun hne => absurd rfl hne⟩,
      .length hwidx ((toNat_eq_zero_iff _).mp hzero) (by omega), nofun⟩
    exact (congrArg (· + 1) hwidx).trans (Nat.add_sub_cancel 6 _).symm
  | payloadMore hst hcnt =>
    obtain ⟨hpos, hle, hlen, hwidx⟩ := h.readPayload_registers hst
    refine ⟨?_, hlen, ⟨fun _ => by omega, fun hne => absurd rfl hne⟩, .late (by omega) rfl, nofun⟩
    show s.widx + 1 = 6 + s.lenStage - (s.cnt - 1)
    omega
  | payloadLast hst hcnt =>
    obtain ⟨hpos, hle, hlen, hwidx⟩ := h.readPayload_registers hst
    refine ⟨?_, hlen, ⟨nofun, fun _ => rfl⟩, .late (by omega) rfl, nofun⟩
    show s.widx + 1 = 6 + s.lenStage
    omega
  | checksum hst =>
    obtain ⟨hlen, hwidx⟩ := h.readChecksum_registers hst
    refine ⟨?_, hlen, ⟨nofun, fun _ => h.cnt.2 (by rw [hst]; nofun)⟩, .late (by omega) rfl, nofun⟩
    show s.widx + 1 = 7 + s.lenStage
    omega
  | tail0 hst hb =>
    obtain ⟨hlen, hwidx⟩ := h.sawTail1_registers hst
    refine ⟨?_, hlen, ⟨nofun, fun _ => h.cnt.2 (by rw [hst]; nofun)⟩, .late (by omega) rfl, fun _ => ⟨hwidx, hb⟩⟩
    show s.widx + 1 = 8 + s.lenStage
    omega

theorem BlockInv.accepted {s : State} (h : BlockInv s) {b : Byte} {st' : DecState} {l c : Nat} (hacc : Accepts b s st' l c) :
    BlockInv { s with buf := s.buf.write s.widx b, widx := s.widx + 1, st := st', lenStage := l, cnt := c } := by
  obtain ⟨hwidx, hlen, hcnt, hright, htail⟩ := h.acceptedOk hacc
  obtain ⟨cap, mem, outside, hb, speed, speedInit⟩ := h.sound.write h.widx_inside b st' (s.widx + 1) l c
  exact ⟨cap, mem, outside, hwidx, hlen, hcnt, h.headerOk_write hright htail, hb, speed, speedInit⟩

/-! ### Every byte, every request -/

/-- From a good state the outcome is a good next state. -/
def AnswersGood (o : Out) : Prop := ∃ t, o = .next t ∧ BlockInv t

theorem BlockInv.rx_answersGood {s : State} (h : BlockInv s) (b : Byte) : AnswersGood (rx b s) := by
  have hreacts := h.rx_reacts b
  generalize rx b s = o at hreacts ⊢
  cases hreacts with
  | discarded => exact ⟨_, rfl, h⟩
  | accepted hacc => exact ⟨_, rfl, h.accepted hacc⟩
  | aborted => exact ⟨_, rfl, Sound.fdClear_good ⟨h.cap, h.mem, h.outside, h.hb, h.speed, h.speedInit⟩⟩
  | completed _ _ hwithin =>
    have hstored : Sound (tailStored s) := h.sound.write h.widx_inside Config.tail1 s.st (s.widx + 1) s.lenStage s.cnt
    exact ⟨_, rfl, (hstored.apply hwithin).fdClear_good⟩

theorem BlockInv.rxAndTake_answersGood {s : State} (h : BlockInv s) (b : Byte) : AnswersGood (rxAndTake b s) := by
  have hcounted : BlockInv { s with choices := s.choices + 1 } := h.interface s.input s.out (s.choices + 1)
  unfold rxAndTake
  split
  · exact hcounted.hbTake.rx_answersGood b
  · obtain ⟨t, ht, hgood⟩ := hcounted.rx_answersGood b
    rw [ht]
    exact ⟨_, rfl, hgood.hbTake⟩

theorem BlockInv.step_answersGood {s : State} (h : BlockInv s) : AnswersGood (step s) := by
  cases hin : s.input with
  | nil =>
    rw [step_idle hin]
    exact ⟨_, rfl, h.interface s.input [] s.choices⟩
  | cons r rest =>
    have htaken : BlockInv { s with input := rest, out := [] } := h.interface rest [] s.choices
    rw [step_cons hin]
    cases r with
    | rx b => exact htaken.rx_answersGood b
    | hbTake => exact ⟨_, rfl, htaken.hbTake⟩
    | reset => exact ⟨_, rfl, htaken.resetBlock⟩
    | rxAndTake b => exact htaken.rxAndTake_answersGood b

/-- Settles O52: a step of a good state answers a good state, and no other. -/
theorem everyStepKeepsTheBlockGood : Obligations.EveryStepKeepsTheBlockGood := by
  intro s t h hnext
  obtain ⟨u, hu, hgood⟩ := h.step_answersGood
  rw [hnext] at hu
  cases hu
  exact hgood

/-- Settles O54: a step of a good state answers. -/
theorem noInputStopsTheBlock : Obligations.NoInputStopsTheBlock := by
  intro s h
  obtain ⟨t, ht, _⟩ := h.step_answersGood
  exact ⟨t, ht⟩

/-! ### The frame in progress ends -/

/-- How many more bytes the frame in progress can take. -/
def State.bytesToGo (s : State) : Nat :=
  match s.st with
  | .idle => 0
  | .sawHeader1 => 40
  | .readControl => 39
  | .readCommand => 38
  | .readLenHi => 37
  | .readLenLo => 36
  | .readPayload => s.cnt + 3
  | .readChecksum => 3
  | .sawTail1 => 2
  | .sawTail2 => 1

theorem BlockInv.bytesToGo_le {s : State} (h : BlockInv s) : s.bytesToGo ≤ 40 := by
  unfold State.bytesToGo
  split
  case h_7 hst =>
    obtain ⟨_, hle, hlen, _⟩ := h.readPayload_registers hst
    omega
  all_goals omega

/-- Outside `Idle` an accepted byte is one of those the frame can take. -/
theorem Accepts.bytesToGo_lt {b : Byte} {s : State} {st' : DecState} {l c : Nat} (hacc : Accepts b s st' l c)
    (hst : s.st ≠ .idle) (m : Memory) (w : Nat) :
    State.bytesToGo { s with buf := m, widx := w, st := st', lenStage := l, cnt := c } < s.bytesToGo := by
  cases hacc <;> simp_all [State.bytesToGo] <;> omega

/-- A byte outside `Idle` leads to `Idle` or uses up one of the bytes to go. -/
theorem BlockInv.rx_bytesToGo {s : State} (h : BlockInv s) (hst : s.st ≠ .idle) (b : Byte) :
    ∃ t, rx b s = .next t ∧ BlockInv t ∧ t.input = s.input ∧ (t.st ≠ .idle → t.bytesToGo < s.bytesToGo) := by
  obtain ⟨t, ht, hgood⟩ := h.rx_answersGood b
  refine ⟨t, ht, hgood, ?_⟩
  have hreacts := h.rx_reacts b
  rw [ht] at hreacts
  cases hreacts with
  | discarded hidle => exact absurd hidle hst
  | accepted hacc => exact ⟨rfl, fun _ => hacc.bytesToGo_lt hst _ _⟩
  | aborted | completed => exact ⟨rfl, fun hne => absurd rfl hne⟩

theorem State.bytesToGo_pos {s : State} (hst : s.st ≠ .idle) : 1 ≤ s.bytesToGo := by
  unfold State.bytesToGo
  split
  case h_1 hidle => exact absurd hidle hst
  all_goals omega

theorem runFor_one {s t : State} (h : step s = .next t) : runFor 1 s = .next t := by
  rw [runFor, h]
  rfl

theorem runFor_succ {s t : State} (h : step s = .next t) (k : Nat) : runFor (k + 1) s = runFor k t := by
  rw [runFor, h, andThen_next]

/-- The decoder is back in `Idle` within the bytes to go. -/
theorem BlockInv.returns_to_idle {s : State} (h : BlockInv s) {bs : List Byte} {rest : List Request} (hst : s.st ≠ .idle)
    (hlen : s.bytesToGo ≤ bs.length) (hin : s.input = deliver bs rest) :
    ∃ k t, 1 ≤ k ∧ k ≤ s.bytesToGo ∧ runFor k s = .next t ∧ t.st = .idle ∧ t.input = deliver (bs.drop k) rest := by
  have hpos := State.bytesToGo_pos hst
  induction bs generalizing s with
  | nil => exact absurd (hpos.trans hlen) (by decide)
  | cons b bs ih =>
    have htaken : BlockInv { s with input := deliver bs rest, out := [] } := h.interface (deliver bs rest) [] s.choices
    obtain ⟨t, ht, hgood, hinput, hless⟩ := htaken.rx_bytesToGo hst b
    have hstep : step s = .next t := (step_cons hin).trans ht
    by_cases hidle : t.st = .idle
    · exact ⟨1, t, Nat.le_refl 1, hpos, runFor_one hstep, hidle, hinput⟩
    · have hless : t.bytesToGo < s.bytesToGo := hless hidle
      have hfits : t.bytesToGo ≤ bs.length := Nat.le_of_lt_succ (Nat.lt_of_lt_of_le hless hlen)
      obtain ⟨k, u, _, hk, hrun, hu, hrest⟩ := ih hgood hidle hfits hinput (State.bytesToGo_pos hidle)
      exact ⟨k + 1, u, Nat.le_add_left 1 k, Nat.succ_le_of_lt (Nat.lt_of_le_of_lt hk hless),
        (runFor_succ hstep k).trans hrun, hu, hrest⟩

/-- Settles O58: no frame in progress takes more than 40 bytes. -/
theorem decoderReturnsToIdleWithinFortyBytes : Obligations.DecoderReturnsToIdleWithinFortyBytes := by
  intro bs rest s h hst hlen hin
  obtain ⟨k, t, hpos, hk, hrun, hidle, hinput⟩ := h.returns_to_idle hst (h.bytesToGo_le.trans hlen) hin
  exact ⟨k, t, hpos, hk.trans h.bytesToGo_le, hrun, hidle, hinput⟩

end Sys2Proof.Machine
end

section
/-! PROOFS that the decoder looks at its own registers only (41 R130, 70 R354; 10 R31, 00 R8). `rx_related` says it once: a relation of
states with equal decoders that survives what a byte can do holds after the byte. The independence from the dispatcher's registers,
from the capacity and from a pending heartbeat are three such relations. -/

namespace Sys2Proof.Machine

/-! ### Outcomes side by side -/

theorem outRel_andThen {R Q : State → State → Prop} {o o' : Out} {f g : State → Out} (h : outRel R o o')
    (hfg : ∀ s t, R s t → outRel Q (f s) (g t)) : outRel Q (andThen o f) (andThen o' g) := by
  cases o with
  | next s =>
    cases o' with
    | next t => exact hfg s t h
    | fault | refused => exact False.elim h
  | fault r =>
    cases o' with
    | fault q => exact h
    | next | refused => exact False.elim h
  | refused r =>
    cases o' with
    | refused q => exact h
    | next | fault => exact False.elim h

/-! ### `hb_take()` in one equation -/

/-- What `hb_take()` publishes from a register value. -/
def hbEvents (hb : Byte) : List Event := if hb = 0xFF#8 then [] else [.pub .heartbeat (.u8 hb)]

theorem hbTake_eq (s : State) : hbTake s = { s with hb := 0xFF#8, out := s.out ++ hbEvents s.hb } := by
  by_cases hhb : s.hb = 0xFF#8
  · rw [hbTake_uninitialized hhb, hbEvents, if_pos hhb, List.append_nil, ← hhb]
  · rw [hbTake_pending hhb, hbEvents, if_neg hhb]

/-! ### A byte on two states with one decoder -/

/-- `R` relates only states with equal decoders, and is kept by new values of the decoder's registers and by the effects of `E`. -/
structure Respects (E : Effect → Prop) (R : State → State → Prop) : Prop where
  decoder {s t : State} (h : R s t) :
    s.st = t.st ∧ s.widx = t.widx ∧ s.buf = t.buf ∧ s.lenStage = t.lenStage ∧ s.cnt = t.cnt
  place {s t : State} (h : R s t) (st' : DecState) (w : Nat) (m : Memory) (l c : Nat) :
    R { s with st := st', widx := w, buf := m, lenStage := l, cnt := c }
      { t with st := st', widx := w, buf := m, lenStage := l, cnt := c }
  apply {s t : State} {e : Effect} (he : E e) (h : R s t) : R (e.apply s) (e.apply t)

theorem Respects.fdClear {E : Effect → Prop} {R : State → State → Prop} (hR : Respects E R) {s t : State} (h : R s t) :
    R s.fdClear t.fdClear := by
  obtain ⟨_, _, hbuf, _, _⟩ := hR.decoder h
  have ht : t.fdClear = { t with st := .idle, widx := 0, buf := s.buf, lenStage := 0, cnt := 0 } := by rw [hbuf]; rfl
  rw [ht]
  exact hR.place h .idle 0 s.buf 0 0

/-- Accepting looks at the decoder state, the staged length and the countdown. -/
theorem Accepts.congr {b : Byte} {s t : State} {st' : DecState} {l c : Nat} (hst : s.st = t.st) (hlen : s.lenStage = t.lenStage)
    (hcnt : s.cnt = t.cnt) (h : Accepts b s st' l c) : Accepts b t st' l c := by
  cases h with
  | header0 hs hb => rw [hlen, hcnt]; exact .header0 (hst ▸ hs) hb
  | header1 hs hb => rw [hlen, hcnt]; exact .header1 (hst ▸ hs) hb
  | control hs => rw [hlen, hcnt]; exact .control (hst ▸ hs)
  | command hs => rw [hlen, hcnt]; exact .command (hst ▸ hs)
  | lenHi hs hb => rw [hcnt]; exact .lenHi (hst ▸ hs) hb
  | noPayload hs ht => exact .noPayload (hst ▸ hs) (hlen ▸ ht)
  | somePayload hs hpos hle => rw [hlen]; exact .somePayload (hst ▸ hs) (hlen ▸ hpos) (hlen ▸ hle)
  | payloadMore hs hc => rw [hlen, hcnt]; exact .payloadMore (hst ▸ hs) (hcnt ▸ hc)
  | payloadLast hs hc => rw [hlen]; exact .payloadLast (hst ▸ hs) (hcnt ▸ hc)
  | checksum hs => rw [hlen, hcnt]; exact .checksum (hst ▸ hs)
  | tail0 hs hb => rw [hlen, hcnt]; exact .tail0 (hst ▸ hs) hb

theorem Aborts.congr {b : Byte} {s t : State} {e : Err} (hst : s.st = t.st) (hlen : s.lenStage = t.lenStage)
    (h : Aborts b s e) : Aborts b t e := by
  cases h with
  | header1 hs hb => exact .header1 (hst ▸ hs) hb
  | lenHi hs hb => exact .lenHi (hst ▸ hs) hb
  | lenOver hs ht => rw [hlen]; exact .lenOver (hst ▸ hs) (hlen ▸ ht)
  | tail1 hs hb => exact .tail1 (hst ▸ hs) hb
  | tail2 hs hb => exact .tail2 (hst ▸ hs) hb

theorem Respects.tailStored {E : Effect → Prop} {R : State → State → Prop} (hR : Respects E R) {s t : State} (h : R s t) :
    R (tailStored s) (tailStored t) := by
  obtain ⟨hst, hwidx, hbuf, hlen, hcnt⟩ := hR.decoder h
  have ht : Machine.tailStored t = { t with
      st := s.st, widx := s.widx + 1, buf := s.buf.write s.widx Config.tail1, lenStage := s.lenStage, cnt := s.cnt } := by
    rw [hst, hwidx, hbuf, hlen, hcnt]
    rfl
  rw [ht]
  exact hR.place h s.st (s.widx + 1) (s.buf.write s.widx Config.tail1) s.lenStage s.cnt

theorem snapshot_congr {s t : State} (hwidx : s.widx = t.widx) (hbuf : s.buf = t.buf) : snapshot s = snapshot t := by
  rw [snapshot, snapshot, hwidx, hbuf]

theorem store_outside {a : Nat} {s : State} (ha : ¬ a < s.params.bufCap) (b : Byte) : store a b s = .fault .bufferBounds :=
  if_neg ha

theorem rx_completes_inside {s : State} (hst : s.st = .sawTail2) (hinside : s.widx < s.params.bufCap) :
    rx Config.tail1 s = andThen (complete (tailStored s)) fun t => .next t.fdClear := by
  rw [rx_completes hst, store_inside hinside, andThen_next]
  rfl

/-- Receiving a byte depends on the decoder's registers and on whether the address it is stored at lies in the buffer. The effect of a
completed frame has to be one of `E`; it writes `hb` only for a heartbeat reply. -/
theorem rx_related {E : Effect → Prop} {R : State → State → Prop} (hR : Respects E R) (hemit : ∀ ev, E (.emit ev)) {s t : State}
    (h : R s t) (hcap : writeIndex s < s.params.bufCap ↔ writeIndex s < t.params.bufCap) (b : Byte)
    (hcomplete : s.st = .sawTail2 → b = Config.tail1 → ∀ (e : Effect) (r : Rights), e.Within r 5 →
      (r.hb = true → isHeartbeatReply (snapshot (tailStored s))) → E e) :
    outRel R (rx b s) (rx b t) := by
  obtain ⟨hst, hwidx, hbuf, hlen, hcnt⟩ := hR.decoder h
  have hindex : writeIndex s = writeIndex t := by rw [writeIndex, writeIndex, hst, hwidx]
  cases receives b s with
  | discarded hidle hb =>
    rw [rx_discarded hidle hb, rx_discarded (hst ▸ hidle) hb]
    exact h
  | accepted hacc =>
    by_cases hinside : writeIndex s < s.params.bufCap
    · rw [rx_accepts_inside hacc hinside, rx_accepts_inside (hacc.congr hst hlen hcnt) (hindex ▸ hcap.mp hinside), ← hindex, ← hbuf]
      exact hR.place h _ _ _ _ _
    · rw [rx_accepts hacc, rx_accepts (hacc.congr hst hlen hcnt), store_outside hinside, ← hindex, store_outside (mt hcap.mpr hinside)]
      rfl
  | aborted habort =>
    rw [rx_aborts habort, rx_aborts (habort.congr hst hlen)]
    exact hR.fdClear (hR.apply (hemit _) h)
  | completed htail hb =>
    subst hb
    have hindex : writeIndex s = s.widx := by rw [writeIndex, htail]
    rw [hindex] at hcap
    by_cases hinside : s.widx < s.params.bufCap
    · rw [rx_completes_inside htail hinside, rx_completes_inside (hst ▸ htail) (hwidx ▸ hcap.mp hinside)]
      have hstored := hR.tailStored h
      have hsnapshot : snapshot (tailStored t) = snapshot (tailStored s) := by
        obtain ⟨_, hwidx, hbuf, _, _⟩ := hR.decoder hstored
        exact (snapshot_congr hwidx hbuf).symm
      rcases complete_effect (snapshot (tailStored s)) with hfault | ⟨e, r, hwithin, hhb, heffect⟩
      · rw [hfault _ rfl, hfault _ hsnapshot]
        rfl
      · rw [heffect _ rfl, heffect _ hsnapshot]
        exact hR.fdClear (hR.apply (hcomplete htail rfl e r hwithin hhb) hstored)
    · rw [rx_completes htail, rx_completes (hst ▸ htail), store_outside hinside, ← hwidx, store_outside (mt hcap.mpr hinside)]
      rfl
  | underflow hpayload hzero =>
    rw [rx_underflow hpayload hzero, rx_underflow (hst ▸ hpayload) (hcnt ▸ hzero)]
    rfl

/-! ### The dispatcher's registers -/

theorem sameDecoder_respects : Respects (fun _ => True) sameDecoder where
  decoder := fun ⟨hst, hwidx, hbuf, hlen, hcnt, _⟩ => ⟨hst, hwidx, hbuf, hlen, hcnt⟩
  place := fun ⟨_, _, _, _, _, hcap, hin⟩ _ _ _ _ _ => ⟨rfl, rfl, rfl, rfl, rfl, hcap, hin⟩
  apply := fun _ h => h

/-- Settles O60: two states that agree on the decoder stay so, for every byte and in every state. -/
theorem decodingIgnoresTheDispatcherRegisters : Obligations.DecodingIgnoresTheDispatcherRegisters := by
  intro b s t h
  have ⟨_, _, _, _, _, hcap, _⟩ := h
  exact rx_related sameDecoder_respects (fun _ => trivial) h (by rw [hcap]) b fun _ _ _ _ _ _ => trivial

/-! ### The capacity -/

def State.withCap (c : Nat) (s : State) : State := { s with params := { s.params with bufCap := c } }

theorem withCap_respects (c : Nat) : Respects (fun _ => True) fun s t => t = s.withCap c where
  decoder := by rintro s t rfl; exact ⟨rfl, rfl, rfl, rfl, rfl⟩
  place := by rintro s t rfl; exact fun _ _ _ _ _ => rfl
  apply := by rintro s t e - rfl; rfl

/-- With a legal capacity every address of the longest frame lies in the buffer. -/
theorem BlockInv.rx_withCap {s : State} (h : BlockInv s) {c : Nat} (hc : 41 ≤ c) (b : Byte) :
    outRel (fun t u => u = t.withCap c) (rx b s) (rx b (s.withCap c)) := by
  have hindex : writeIndex s ≤ 40 := h.writeIndex_eq ▸ h.widx_le
  have hcap : writeIndex s < s.params.bufCap ↔ writeIndex s < c :=
    iff_of_true (h.inside hindex) (Nat.lt_of_le_of_lt hindex hc)
  exact rx_related (withCap_respects c) (fun _ => trivial) rfl hcap b fun _ _ _ _ _ _ => trivial

theorem hbTake_withCap (c : Nat) (s : State) : hbTake (s.withCap c) = (hbTake s).withCap c := by
  rw [hbTake_eq, hbTake_eq]
  rfl

theorem BlockInv.rxAndTake_withCap {s : State} (h : BlockInv s) {c : Nat} (hc : 41 ≤ c) (b : Byte) :
    outRel (fun t u => u = t.withCap c) (rxAndTake b s) (rxAndTake b (s.withCap c)) := by
  have hcounted : BlockInv { s with choices := s.choices + 1 } := h.interface s.input s.out (s.choices + 1)
  unfold rxAndTake
  show outRel _ _ (if Config.takeFirst s.choices then _ else _)
  split
  · have htaken := hcounted.hbTake.rx_withCap hc b
    rwa [← hbTake_withCap] at htaken
  · exact outRel_andThen (hcounted.rx_withCap hc b) fun t u hu => hu ▸ hbTake_withCap c t

/-- Settles O59: only the store form looks at the capacity, and no good state stores beyond the least legal one. -/
theorem bufferCapacityIsUnobservable : Obligations.BufferCapacityIsUnobservable := by
  intro s c h hc
  show outRel (fun t u => u = t.withCap c) (step s) (step (s.withCap c))
  cases hin : s.input with
  | nil =>
    rw [step_idle hin, step_idle (s := s.withCap c) hin]
    rfl
  | cons r rest =>
    have htaken : BlockInv { s with input := rest, out := [] } := h.interface rest [] s.choices
    rw [step_cons hin, step_cons (s := s.withCap c) hin]
    cases r with
    | rx b => exact htaken.rx_withCap hc b
    | hbTake => exact hbTake_withCap c { s with input := rest, out := [] }
    | reset => rfl
    | rxAndTake b => exact htaken.rxAndTake_withCap hc b

/-! ### A pending heartbeat -/

/-- `t` comes from `s₀` by something that leaves `hb` alone, `u` by the same thing after `hb_take()`. -/
def TakenBefore (s₀ t u : State) : Prop :=
  t.hb = s₀.hb ∧ ∃ es, t.out = s₀.out ++ es ∧ u = { t with hb := 0xFF#8, out := s₀.out ++ hbEvents s₀.hb ++ es }

theorem takenBefore_respects (s₀ : State) : Respects (fun e => e.hb = none) (TakenBefore s₀) where
  decoder := by rintro t u ⟨_, es, _, rfl⟩; exact ⟨rfl, rfl, rfl, rfl, rfl⟩
  place := by rintro t u ⟨hhb, es, hout, rfl⟩; exact fun _ _ _ _ _ => ⟨hhb, es, hout, rfl⟩
  apply := by
    rintro t u e he ⟨hhb, es, hout, rfl⟩
    refine ⟨by simp [Effect.apply, he, hhb], es ++ e.events t.cache, by simp [Effect.apply, hout], ?_⟩
    simp [Effect.apply, he]

/-- Taking afterwards gives the same state with the events in another order. -/
theorem TakenBefore.hbTake_perm {s₀ t u : State} (h : TakenBefore s₀ t u) :
    hbTake t = { u with out := (hbTake t).out } ∧ (hbTake t).out.Perm u.out := by
  obtain ⟨hhb, es, hout, rfl⟩ := h
  rw [hbTake_eq, hhb, hout]
  refine ⟨rfl, ?_⟩
  rw [List.append_assoc, List.append_assoc]
  exact List.perm_append_comm.append_left s₀.out

/-- In a good state the snapshot is a heartbeat reply when the buffer's pair and checksum say so. -/
theorem BlockInv.isHeartbeatReply_iff {s : State} (h : BlockInv s) (hst : s.st = .sawTail2) :
    isHeartbeatReply (snapshot (tailStored s)) ↔ s.buf.read 2 = 0x01#8 ∧ s.buf.read 3 = 0x01#8 ∧
      checksum (snapshot (tailStored s)) = s.buf.read (6 + s.lenStage) := by
  obtain ⟨_, hwidx⟩ := h.sawTail2_registers hst
  have hstored : (tailStored s).widx = 9 + s.lenStage := by
    show s.widx + 1 = _
    omega
  rw [isHeartbeatReply, snapshot_length, verify_tailStored_iff h hst, snapshot_get _ (by omega), snapshot_get _ (by omega),
    tailStored_read (by omega), tailStored_read (by omega)]
  have hsix : 6 ≤ (tailStored s).widx := by omega
  tauto

/-- Settles O50: without a heartbeat reply the byte leaves `hb` alone, so `hb_take()` finds the same value before and after it. -/
theorem rxAndHbTakeCommuteOrAreOrdered : Obligations.RxAndHbTakeCommuteOrAreOrdered := by
  constructor
  · intro b s h hno
    have hstart : TakenBefore s s (hbTake s) := ⟨rfl, [], (List.append_nil _).symm, by rw [hbTake_eq, List.append_nil]⟩
    have hrelated : outRel (TakenBefore s) (rx b s) (rx b (hbTake s)) := by
      refine rx_related (takenBefore_respects s) (fun _ => rfl) hstart (by rw [hbTake_eq]) b
        fun hst hb e r hwithin hreply => ?_
      by_contra hwrites
      obtain ⟨v, hv⟩ := Option.ne_none_iff_exists'.mp hwrites
      exact hno ⟨hst, hb, (h.isHeartbeatReply_iff hst).mp (hreply (hwithin.hb v hv).1)⟩
    have hid : andThen (rx b (hbTake s)) .next = rx b (hbTake s) := by cases rx b (hbTake s) <;> rfl
    rw [← hid]
    exact outRel_andThen hrelated fun _ _ htaken => htaken.hbTake_perm
  · rintro b s c rfl
    by_cases hfirst : Config.takeFirst s.choices = true
    · exact .inl (if_pos hfirst)
    · exact .inr (if_neg hfirst)

/-- Settles O51: `hb_take()` does nothing on 255, so the two orders differ in which side of it the completed reply writes 1. -/
theorem heartbeatCompletionDependsOnTheOrder : Obligations.HeartbeatCompletionDependsOnTheOrder := by
  intro s h hst hhb hctrl hcmd hsum
  have hcompleted : rx 0x43#8 s = .next { (tailStored s).fdClear with hb := 0x01#8 } := by
    rw [completedFrameIsDispatched s h hst hsum, hctrl, hcmd]
    rfl
  rw [hbTake_uninitialized hhb, hcompleted, andThen_next]
  exact ⟨⟨_, rfl, rfl, rfl⟩, ⟨_, rfl, by rw [hbTake_eq], by rw [hbTake_eq]; rfl⟩⟩

end Sys2Proof.Machine
end

section
/-! PROOFS about the step and the host's operations (00 R14, 20 R74, 47 R261, 70 R340, R342), and about the frame that decodes to an
instruction: its step is that instruction (42 R160). -/

namespace Sys2Proof.Machine

/-- Settles O44: the request list decides which rule serves. -/
theorem stepServesTheFirstRequest : Obligations.StepServesTheFirstRequest :=
  ⟨fun _ => step_idle, fun _ _ _ => step_cons, fun _ _ => step_cons, fun _ _ => step_cons, fun _ _ _ => step_cons⟩

/-- Settles O45: with `rst` the other ports are not looked at. -/
theorem resetPortHasPriority : Obligations.ResetPortHasPriority :=
  ⟨fun _ _ _ => rfl, fun _ => ⟨rfl, rfl, rfl, rfl⟩⟩

/-- Settles O47: the first `hb_take()` leaves 255, on which the second does nothing. -/
theorem hbTakePublishesOnce : Obligations.HbTakePublishesOnce :=
  fun s => ⟨hbTake_uninitialized, hbTake_pending, hbTake_uninitialized (by rw [hbTake_eq])⟩

/-- Settles O48: the step is `reset()`, register by register. -/
theorem resetRestoresEveryRegister : Obligations.ResetRestoresEveryRegister :=
  fun _ _ hin => ⟨_, step_reset hin, rfl, rfl, rfl, rfl, rfl, rfl, rfl, fun _ => rfl, rfl, rfl, rfl, rfl⟩

/-! ### The decoded instruction -/

/-- A byte written behind the first `n` is the next one read. -/
theorem Memory.map_read_write {m : Memory} (hwf : m.wf = true) (n : Nat) (b : Byte) :
    (List.range (n + 1)).map (m.write n b).read = (List.range n).map m.read ++ [b] := by
  have hearlier : (List.range n).map (m.write n b).read = (List.range n).map m.read :=
    List.map_congr_left fun _ ha => Memory.read_write_other m b (Nat.ne_of_lt (List.mem_range.mp ha))
  rw [List.range_succ, List.map_append, hearlier, List.map_singleton, Memory.read_write_same hwf]

theorem snapshot_tailStored {s : State} (hwf : s.buf.wf = true) :
    snapshot (tailStored s) = snapshot s ++ [Config.tail1] :=
  Memory.map_read_write hwf s.widx Config.tail1

/-- A frame in the snapshot is completed by running the ROM's answer for its pair and payload. -/
theorem complete_frame {s : State} {cc ss : Byte} {p : List Byte} (hlen : p.length ≤ 32) (hsnap : snapshot s = frame cc ss p) :
    complete s = runRom (romLookup cc ss p) s := by
  rw [complete, hsnap, if_neg (by rw [frame_length]; omega), if_pos (verify_frame cc ss p), dispatch_frame cc ss (by omega)]

/-- Settles O46: the bytes are the instruction's encoding, a frame the dispatcher takes apart again. -/
theorem stepRunsTheDecodedInstruction : Obligations.StepRunsTheDecodedInstruction := by
  intro i s rest hst hin hinside hwf hdecode
  obtain ⟨cc, ss, p, hlen, hframe, hrow⟩ := decode_eq_instr hdecode
  have hsnap : snapshot (tailStored { s with input := rest, out := [] }) = frame cc ss p :=
    (snapshot_tailStored hwf).trans hframe
  calc step s = rx 0x43#8 { s with input := rest, out := [] } := step_cons hin
    _ = andThen (complete (tailStored { s with input := rest, out := [] })) fun t => .next t.fdClear :=
      rx_completes_inside hst hinside
    _ = andThen (exec i { tailStored s with input := rest, out := [] }) fun t => .next t.fdClear := by
      rw [complete_frame hlen hsnap, hrow]
      rfl

end Sys2Proof.Machine
end

section
/-! PROOFS about byte streams (41 R145 to R147). What a run over a frame leaves after each byte is written down as a state, `received`,
and one lemma says that the next byte of the frame leads from each to the next; placing a frame, delivering it and the silence before
its last byte are read off the run. -/

namespace Sys2Proof.Machine

/-- `s` with an empty output list and the bytes `bs` still to come. -/
def awaiting (bs : List Byte) (rest : List Request) (s : State) : State := { s with input := deliver bs rest, out := [] }

theorem step_deliver (b : Byte) (bs : List Byte) (rest : List Request) (s : State) :
    step { s with input := deliver (b :: bs) rest } = rx b (awaiting bs rest s) :=
  step_cons (s := { s with input := deliver (b :: bs) rest }) rfl

/-! ### Noise -/

/-- Settles O57: in `Idle` each byte but 0x53 is discarded. -/
theorem noiseWithoutHeaderIsDropped : Obligations.NoiseWithoutHeaderIsDropped := by
  intro noise rest s hst hnoise hne
  induction noise generalizing s with
  | nil => exact absurd rfl hne
  | cons b bs ih =>
    obtain ⟨hb, hbs⟩ := not_or.mp (mt List.mem_cons.mpr hnoise)
    have hstep : step { s with input := deliver (b :: bs) rest } = .next { s with input := deliver bs rest, out := [] } :=
      (step_deliver b bs rest s).trans (rx_discarded hst (Ne.symm hb))
    cases bs with
    | nil => exact runFor_one hstep
    | cons b' bs' => exact (runFor_succ hstep _).trans (ih { s with out := [] } hst hbs (List.cons_ne_nil b' bs'))

/-! ### The states of a frame on its way -/

/-- The decoder state after `j` bytes of a frame with `n` payload bytes. -/
def frameState (n : Nat) : Nat → DecState
  | 0 => .idle
  | 1 => .sawHeader1
  | 2 => .readControl
  | 3 => .readCommand
  | 4 => .readLenHi
  | 5 => .readLenLo
  | j + 6 => if j < n then .readPayload else if j = n then .readChecksum else if j = n + 1 then .sawTail1 else .sawTail2

/-- An idle block that has received `j` bytes of the frame. -/
def received (cc ss : Byte) (p : List Byte) (j : Nat) (s : State) : State :=
  { s with
    st := frameState p.length j
    widx := j
    buf := writeBytes s.buf 0 ((frame cc ss p).take j)
    lenStage := if j ≤ 4 then s.lenStage else if j = 5 then 0 else p.length
    cnt := if j ≤ 5 then s.cnt else p.length - (j - 6) }

theorem frameState_payload {n j : Nat} (h : j < n) : frameState n (j + 6) = .readPayload := if_pos h

theorem frameState_checksum (n : Nat) : frameState n (n + 6) = .readChecksum := by simp [frameState]

theorem frameState_tail1 (n : Nat) : frameState n (n + 7) = .sawTail1 := by simp [frameState]

theorem frameState_tail2 (n : Nat) : frameState n (n + 8) = .sawTail2 := by simp [frameState]

theorem byteAt_frame_tail0 (cc ss : Byte) (p : List Byte) : byteAt (frame cc ss p) (p.length + 7) = Config.tail0 := by
  simp [byteAt, frame_eq_cons]

theorem byteAt_frame_tail1 (cc ss : Byte) (p : List Byte) : byteAt (frame cc ss p) (p.length + 8) = Config.tail1 := by
  simp [byteAt, frame_eq_cons]

section Received

variable (cc ss : Byte) {p : List Byte} (s : State)

theorem received_lenStage (j : Nat) : (received cc ss p (j + 6) s).lenStage = p.length := by
  simp [received]

theorem received_cnt (j : Nat) : (received cc ss p (j + 6) s).cnt = p.length - j := by
  simp [received]

/-- A byte of the frame is accepted where it arrives, and leads to the registers of `received`. -/
def AcceptsAt (j : Nat) : Prop :=
  Accepts (byteAt (frame cc ss p) j) (received cc ss p j s) (frameState p.length (j + 1))
    (received cc ss p (j + 1) s).lenStage (received cc ss p (j + 1) s).cnt

theorem acceptsAt_lenHi (hlen : p.length ≤ 32) : AcceptsAt cc ss (p := p) s 4 := by
  have hhigh : (byteAt (frame cc ss p) 4).toNat = 0 := by
    show (BitVec.ofNat 8 (p.length / 256)).toNat = 0
    rw [BitVec.toNat_ofNat]
    omega
  have hacc := Accepts.lenHi (b := byteAt (frame cc ss p) 4) (s := received cc ss p 4 s) rfl (by omega)
  rw [hhigh] at hacc
  exact hacc

theorem acceptsAt_lenLo (hlen : p.length ≤ 32) : AcceptsAt cc ss (p := p) s 5 := by
  have hlow : (byteAt (frame cc ss p) 5).toNat = p.length := by
    show (BitVec.ofNat 8 p.length).toNat = p.length
    rw [BitVec.toNat_ofNat]
    omega
  have htotal : (received cc ss p 5 s).lenStage + (byteAt (frame cc ss p) 5).toNat = p.length := by
    rw [hlow]
    exact Nat.zero_add _
  have hlenStage := received_lenStage cc ss (p := p) s 0
  have hcnt := received_cnt cc ss (p := p) s 0
  by_cases hzero : p.length = 0
  · refine (Accepts.noPayload rfl (htotal.trans hzero)).congr_target ?_ ?_ ?_
    · rw [hzero]; rfl
    · rw [hlenStage, hzero]
    · rw [hcnt, hzero]
  · refine (Accepts.somePayload rfl (by omega) (by omega)).congr_target ?_ ?_ ?_
    · exact (frameState_payload (Nat.pos_of_ne_zero hzero)).symm
    · rw [htotal, hlenStage]
    · rw [htotal, hcnt, Nat.sub_zero]

/-- The payload bytes count down, the last one to `ReadChecksum`. -/
theorem acceptsAt_payload {j : Nat} (hj : j < p.length) : AcceptsAt cc ss (p := p) s (j + 6) := by
  have hst : (received cc ss p (j + 6) s).st = .readPayload := frameState_payload hj
  have hcnt := received_cnt cc ss (p := p) s j
  have hcnt' := received_cnt cc ss (p := p) s (j + 1)
  have hlenStage : (received cc ss p (j + 6) s).lenStage = (received cc ss p (j + 1 + 6) s).lenStage := by
    rw [received_lenStage, received_lenStage]
  by_cases hlast : j + 1 = p.length
  · refine (Accepts.payloadLast hst (by omega)).congr_target ?_ hlenStage (by rw [hcnt']; omega)
    rw [← hlast]
    exact (frameState_checksum (j + 1)).symm
  · refine (Accepts.payloadMore hst (by omega)).congr_target ?_ hlenStage (by rw [hcnt, hcnt']; omega)
    exact (frameState_payload (by omega)).symm

theorem acceptsAt_checksum : AcceptsAt cc ss (p := p) s (p.length + 6) := by
  refine (Accepts.checksum (frameState_checksum p.length)).congr_target (frameState_tail1 p.length).symm ?_ ?_
  · rw [received_lenStage, received_lenStage cc ss s (p.length + 1)]
  · rw [received_cnt, received_cnt cc ss s (p.length + 1)]
    omega

theorem acceptsAt_tail0 : AcceptsAt cc ss (p := p) s (p.length + 7) := by
  refine (Accepts.tail0 (frameState_tail1 p.length) (byteAt_frame_tail0 cc ss p)).congr_target
    (frameState_tail2 p.length).symm ?_ ?_
  · rw [received_lenStage cc ss s (p.length + 1), received_lenStage cc ss s (p.length + 2)]
  · rw [received_cnt cc ss s (p.length + 1), received_cnt cc ss s (p.length + 2)]
    omega

theorem acceptsAt (hlen : p.length ≤ 32) {j : Nat} (hpos : 1 ≤ j) (hj : j < p.length + 8) : AcceptsAt cc ss (p := p) s j := by
  match j with
  | 1 => exact .header1 rfl rfl
  | 2 => exact .control rfl
  | 3 => exact .command rfl
  | 4 => exact acceptsAt_lenHi cc ss s hlen
  | 5 => exact acceptsAt_lenLo cc ss s hlen
  | i + 6 =>
    obtain hi | rfl | rfl : i < p.length ∨ i = p.length ∨ i = p.length + 1 := by omega
    · exact acceptsAt_payload cc ss s hi
    · exact acceptsAt_checksum cc ss s
    · exact acceptsAt_tail0 cc ss s

end Received

/-! ### Bytes written one after the other -/

theorem writeBytes_concat (m : Memory) (a : Nat) (bs : List Byte) (b : Byte) :
    writeBytes m a (bs ++ [b]) = (writeBytes m a bs).write (a + bs.length) b := by
  induction bs generalizing m a with
  | nil => rfl
  | cons c cs ih =>
    rw [List.cons_append, writeBytes, ih, writeBytes, List.length_cons, Nat.add_right_comm, Nat.add_assoc]

theorem writeBytes_wf {m : Memory} (hwf : m.wf = true) (a : Nat) (bs : List Byte) : (writeBytes m a bs).wf = true := by
  induction bs generalizing m a with
  | nil => exact hwf
  | cons c cs ih => exact ih (Memory.write_wf hwf a c) (a + 1)

/-- Bytes written from address 0 on are what is read there. -/
theorem map_read_writeBytes {m : Memory} (hwf : m.wf = true) (bs : List Byte) :
    (List.range bs.length).map (writeBytes m 0 bs).read = bs := by
  induction bs using List.reverseRecOn with
  | nil => rfl
  | append_singleton bs b ih =>
    rw [writeBytes_concat, Nat.zero_add, List.length_append, List.length_singleton,
      Memory.map_read_write (writeBytes_wf hwf 0 bs), ih]

theorem take_succ_byteAt {bs : List Byte} {j : Nat} (hj : j < bs.length) : bs.take (j + 1) = bs.take j ++ [byteAt bs j] := by
  rw [List.take_succ_eq_append_getElem hj, byteAt, List.getD_eq_getElem bs _ hj]

theorem drop_eq_byteAt_cons {bs : List Byte} {j : Nat} (hj : j < bs.length) :
    bs.drop j = byteAt bs j :: bs.drop (j + 1) := by
  rw [List.drop_eq_getElem_cons hj, byteAt, List.getD_eq_getElem bs _ hj]

/-! ### The run over a frame -/

theorem runFor_succ_right (k : Nat) (s : State) : runFor (k + 1) s = andThen (runFor k s) step := by
  induction k generalizing s with
  | zero => cases hstep : step s <;> simp [runFor, hstep]
  | succ k ih =>
    cases hstep : step s with
    | next t => rw [runFor_succ hstep, runFor_succ hstep, ih]
    | fault r | refused r => simp [runFor, hstep]

theorem writeIndex_received (cc ss : Byte) (p : List Byte) (j : Nat) (s : State) :
    writeIndex (received cc ss p j s) = j := by
  match j with
  | 0 | 1 | 2 | 3 | 4 | 5 => rfl
  | i + 6 =>
    simp only [writeIndex, received, frameState]
    split_ifs <;> rfl

/-- One more byte of the frame. -/
theorem rx_received (cc ss : Byte) {p : List Byte} (hlen : p.length ≤ 32) {s : State} (hcap : 41 ≤ s.params.bufCap) {j : Nat}
    (hpos : 1 ≤ j) (hj : j < p.length + 8) :
    rx (byteAt (frame cc ss p) j) (received cc ss p j s) = .next (received cc ss p (j + 1) s) := by
  have hindex := writeIndex_received cc ss p j s
  have hinside : writeIndex (received cc ss p j s) < (received cc ss p j s).params.bufCap := by
    rw [hindex]
    exact Nat.lt_of_lt_of_le (by omega) hcap
  have hinFrame : j < (frame cc ss p).length := by rw [frame_length]; omega
  have htaken : ((frame cc ss p).take j).length = j := by rw [List.length_take]; omega
  have hbuf : (received cc ss p (j + 1) s).buf = (received cc ss p j s).buf.write j (byteAt (frame cc ss p) j) := by
    show writeBytes s.buf 0 ((frame cc ss p).take (j + 1)) = (writeBytes s.buf 0 ((frame cc ss p).take j)).write j _
    rw [take_succ_byteAt hinFrame, writeBytes_concat, Nat.zero_add, htaken]
  rw [rx_accepts_inside (acceptsAt cc ss s hlen hpos hj) hinside, hindex, ← hbuf]
  rfl

/-- Delivering a frame to an idle block: after each of its bytes but the last, the state of `received`, and no event. -/
theorem runFor_received (cc ss : Byte) {p : List Byte} (hlen : p.length ≤ 32) (rest : List Request) {s : State}
    (hst : s.st = .idle) (hcap : 41 ≤ s.params.bufCap) {j : Nat} (hj : j < p.length + 8) :
    runFor (j + 1) { s with input := deliver (frame cc ss p) rest } =
      .next (received cc ss p (j + 1) (awaiting ((frame cc ss p).drop (j + 1)) rest s)) := by
  induction j with
  | zero =>
    have hindex : writeIndex s = 0 := by rw [writeIndex, hst]
    have hfirst := rx_accepts_inside (s := awaiting ((frame cc ss p).drop 1) rest s) (.header0 hst rfl)
      (Nat.lt_of_le_of_lt (Nat.le_of_eq hindex) (Nat.lt_of_lt_of_le (by decide) hcap))
    rw [show writeIndex (awaiting _ rest s) = 0 from hindex] at hfirst
    exact runFor_one ((step_deliver _ _ rest s).trans hfirst)
  | succ j ih =>
    have hinFrame : j + 1 < (frame cc ss p).length := by rw [frame_length]; omega
    rw [runFor_succ_right, ih (by omega), andThen_next, drop_eq_byteAt_cons hinFrame]
    exact (step_deliver _ _ rest (received cc ss p (j + 1) (awaiting [] rest s))).trans
      (rx_received cc ss hlen (s := awaiting ((frame cc ss p).drop (j + 2)) rest s) hcap (Nat.le_add_left 1 j) hj)

theorem drop_frame_last (cc ss : Byte) (p : List Byte) : (frame cc ss p).drop (p.length + 8) = [Config.tail1] := by
  rw [drop_eq_byteAt_cons (by rw [frame_length]; omega), List.drop_eq_nil_of_le (by rw [frame_length]), byteAt_frame_tail1]

/-- All bytes but the last: the state that `placeFrame` writes down. -/
theorem received_eq_placeFrame (cc ss : Byte) (p : List Byte) (rest : List Request) (s : State) :
    received cc ss p (p.length + 8) (awaiting [Config.tail1] rest s) =
      { placeFrame (frame cc ss p) { s with input := rest } with out := [] } := by
  simp [placeFrame, received, awaiting, deliver, List.dropLast_eq_take, Config.frameOverhead, frameState_tail2,
    byteAt_frame_tail1]

/-- Settles O55: the run over the frame up to its last byte. -/
theorem placedFrameIsTheDeliveredFrame : Obligations.PlacedFrameIsTheDeliveredFrame := by
  intro cc ss p rest s hlen hcap hst
  rw [runFor_received cc ss hlen rest hst hcap (Nat.lt_succ_self _), drop_frame_last, received_eq_placeFrame]

/-! ### The last byte -/

/-- With the last byte stored the snapshot is the frame. -/
theorem snapshot_received (cc ss : Byte) (p : List Byte) {s : State} (hwf : s.buf.wf = true) :
    snapshot (tailStored (received cc ss p (p.length + 8) s)) = frame cc ss p := by
  have htaken : ((frame cc ss p).take (p.length + 8)).length = p.length + 8 := by
    rw [List.length_take, frame_length]
    omega
  have hreceived : snapshot (received cc ss p (p.length + 8) s) = (frame cc ss p).take (p.length + 8) := by
    have hread := map_read_writeBytes hwf ((frame cc ss p).take (p.length + 8))
    rwa [htaken] at hread
  rw [snapshot_tailStored (writeBytes_wf hwf 0 _), hreceived, ← drop_frame_last cc ss p, List.take_append_drop]

/-- The step of the last byte runs the ROM's answer, whose effect is the same as on the block before the frame. -/
theorem rx_received_last (cc ss : Byte) {p : List Byte} (hlen : p.length ≤ 32) {s : State} (h : BlockInv s) :
    ∃ e : Effect, (∀ t, runRom (romLookup cc ss p) t = .next (e.apply t)) ∧
      rx Config.tail1 (received cc ss p (p.length + 8) s) =
        .next (e.apply (tailStored (received cc ss p (p.length + 8) s))).fdClear := by
  obtain ⟨e, _, _, _, hrun⟩ := runRom_effect (romLookup cc ss p)
  have hinside : p.length + 8 < s.params.bufCap := h.inside (by omega)
  refine ⟨e, hrun, ?_⟩
  rw [rx_completes_inside (frameState_tail2 p.length) hinside,
    complete_frame hlen (snapshot_received cc ss p h.mem), hrun, andThen_next]

/-- Settles O56: the run over the frame is silent, and the step of its last byte is the command. -/
theorem deliveredFrameRunsItsCommandOnce : Obligations.DeliveredFrameRunsItsCommandOnce := by
  intro cc ss p rest s hlen h hst
  have hrun {j : Nat} (hj : j < p.length + 8) := runFor_received cc ss hlen rest hst h.cap hj
  constructor
  · obtain ⟨e, hrom, hlast⟩ := rx_received_last cc ss hlen (h.interface rest [] s.choices)
    refine ⟨_, (e.apply (tailStored (received cc ss p (p.length + 8) (awaiting [] rest s)))).fdClear, hrom _, ?_,
      rfl, rfl, rfl, rfl, rfl, rfl, rfl, rfl, rfl, rfl, rfl⟩
    rw [runFor_succ_right, hrun (Nat.lt_succ_self _), drop_frame_last, andThen_next]
    exact (step_deliver _ [] rest (received cc ss p (p.length + 8) s)).trans hlast
  · intro k v hpos hk hv
    obtain ⟨j, rfl⟩ : ∃ j, k = j + 1 := ⟨k - 1, by omega⟩
    rw [hrun (by omega)] at hv
    cases hv
    exact ⟨rfl, rfl, rfl, rfl⟩

end Sys2Proof.Machine
end
